-- ==== Sys2Proof/Word.lean ====
section
/-!
DEFINITION. The word types of the model and their plainest arithmetic (R6, R7, R207: registers are
32 bits wide, memories and registers little-endian, packet fields most significant byte first).
-/
namespace Sys2Proof

/-- One byte. -/
abbrev Byte := BitVec 8
/-- A register word (R207). -/
abbrev W32 := BitVec 32
/-- A 64-bit quantity (a tick counter, a scalar register, a salt). -/
abbrev W64 := BitVec 64

/-- The value of a byte string read least significant byte first (R7, memories and registers). -/
def leNat : List Byte → Nat
  | [] => 0
  | b :: bs => b.toNat + 256 * leNat bs

/-- The value of a byte string read most significant byte first (R7, packet fields). -/
def beNat (bs : List Byte) : Nat := leNat bs.reverse

/-- `n` little-endian bytes of `v`. -/
def leBytes : Nat → Nat → List Byte
  | 0, _ => []
  | n + 1, v => BitVec.ofNat 8 v :: leBytes n (v / 256)

/-- `n` bytes of `v`, most significant first. -/
def beBytes (n v : Nat) : List Byte := (leBytes n v).reverse

/-- Bits [hi:lo] of a number, both ends inclusive (R6). -/
def bits (v hi lo : Nat) : Nat := (v >>> lo) % 2 ^ (hi + 1 - lo)

/-- Bit [n] of a number. -/
def bit (v n : Nat) : Bool := v.testBit n

/-- A Bool as a number, for building register words. -/
def b2n (b : Bool) : Nat := if b then 1 else 0

/-- Increment of a counter that holds at its largest value. -/
def satInc (max v : Nat) : Nat := if v < max then v + 1 else max

/-- Addition to a counter that holds at its largest value. -/
def satAdd (max v k : Nat) : Nat := Nat.min max (v + k)

end Sys2Proof
end

