-- ==== Sys2Proof/Syntax.lean ====
section
/-!
DEFINITION. The commands of the block: the rows of spec/opcode_table.json with their operands.
The table gives no operand fields. A host command carries the packet that brings it (`Env`, R392) and
its parameter bytes, which its meaning reads by the layouts of R400, R438 and R454. A core op names the
core and the slot, an engine op the cluster (and the engine of a pair): their fields are read from the
bundle or the descriptor that the sequencer holds (R74, R167). An event carries what arrives.
-/
namespace Sys2Proof

/-- The header, source and tag of an Isaex packet as it reaches its port (R391, R392). -/
structure Env where
  /-- Port: 0 ETH0, 1 ETH1. -/
  port : Nat
  /-- Source MAC address, to which a reply is sent (R388). -/
  srcMac : BitVec 48
  /-- Source IP address, IPv4-mapped for IPv4. -/
  srcIp : BitVec 128
  /-- Source UDP port. -/
  srcPort : Nat
  /-- Destination IP address: the address of the device's port that the host used (R397). -/
  dstIp : BitVec 128
  /-- Length of the UDP payload. -/
  udpLen : Nat
  version : Nat
  flags : Nat
  /-- Bytes 2-3, the two bits above the context number included. -/
  context : Nat
  seq : W32
  opcode : Nat
  length : Nat
  status : Nat
  /-- Bytes 14-15, reserved. -/
  resv : Nat
  tag : BitVec 128
deriving DecidableEq, Repr

/-- Destination MAC address of a received frame, as R387 tells them apart. -/
inductive DstMac where
  | own | broadcast | solicitedNode | other
deriving DecidableEq, Repr

/-- The network and transport part of a received frame (R387). -/
inductive NetPart where
  /-- IPv4: header length in words, fragment, header checksum correct, destination address. -/
  | ipv4 (ihl : Nat) (fragment sumOk : Bool) (dst : BitVec 32)
  /-- IPv6: an extension header is present, destination address. -/
  | ipv6 (extension : Bool) (dst : BitVec 128)
  | arp
  | otherEther
deriving DecidableEq, Repr

/-- What an IP packet carries (R387). -/
inductive Transport where
  /-- UDP: destination port, a checksum of 0 was sent, the checksum is correct. -/
  | udp (dport : Nat) (sumZero sumOk : Bool)
  | arpRequest
  | neighbourSolicitation
  /-- ICMP, or an ICMPv6 message that is no neighbour solicitation. -/
  | icmp
  | otherProto
deriving DecidableEq, Repr

/-- A received frame for the stranger checks (R387, R391). -/
structure Frame where
  port : Nat
  fcsOk : Bool
  /-- Frame length, FCS included. -/
  len : Nat
  dst : DstMac
  /-- An IEEE 802.3 PAUSE frame. -/
  pause : Bool
  /-- VIDs of the 802.1Q tags, outermost first. -/
  tags : List Nat
  net : NetPart
  transport : Transport
  /-- The Isaex packet in it, where its UDP port is the Isaex port. -/
  isaex : Option (Env × List Byte)
deriving DecidableEq, Repr

/-- A flit of 576 bytes by the fields of R285. -/
structure Flit where
  typ : BitVec 4
  first : Bool
  last : Bool
  ovf : Bool
  taint : Bool
  phase : BitVec 3
  attempt : BitVec 4
  resv : Nat
  seq : BitVec 16
  ack : BitVec 16
  nak : Bool
  coded : Bool
  board : Bool
  bpos : BitVec 2
  words : BitVec 8
  route : BitVec 16
  rtok : BitVec 16
  step : BitVec 16
  credit : BitVec 16
  dst : BitVec 56
  part : W32
  gen : W32
  payload : List Byte
  /-- Bits [135:0] of the trailer. -/
  parity : BitVec 136
  /-- Symbols that the FEC decoder corrected in the codewords that carried the flit, of receive lanes 0 to 7 and the shadow lane (R290). -/
  symbols : List Nat
deriving DecidableEq, Repr

/-- A Fuelle packet (R346): header fields, plaintext (the model keeps the plaintext in the place of its
ciphertext, which the tag is computed over) and tag. -/
structure FPkt where
  port : Nat
  srcIp : BitVec 128
  srcPort : Nat
  version : Nat
  typ : Nat
  context : Nat
  seq : W32
  epoch : W32
  /-- Bytes 12-15; with GROUP the salt of an OFFER (R371). -/
  round : W32
  group : W32
  index : Nat
  k : Nat
  m : Nat
  flags : Nat
  len : Nat
  resv : Nat
  tick : W32
  plain : List Byte
  tag : BitVec 128
  /-- The IP header carries a CE mark (R354). -/
  ce : Bool
deriving DecidableEq, Repr

/-- An ingest packet from storage (R408). -/
structure IPkt where
  port : Nat
  srcIp : BitVec 128
  srcPort : Nat
  /-- UDP destination port. -/
  dport : Nat
  version : Nat
  typ : Nat
  context : Nat
  reqid : W32
  cookie : W64
  object : W64
  offset : W64
  length : W32
  check : W32
  payload : List Byte
deriving DecidableEq, Repr

/-- State of some parameter groups or of a shard as it travels in a shard copy or fetch data
(R430, R433): byte strings in the order of R225 and R426. -/
structure ShardImage where
  masters : List Byte
  m : List Byte
  r : List Byte
  anchor : List Byte
  u : List Byte
  factors : List Byte
  /-- In FETCH_DATA: the step of the shard's tag (R430). -/
  tag : Nat
deriving DecidableEq, Repr

/-- The holder's answer to the last block of a step: the step, and the shards (stack, shard; 0xFFFF for the records) whose
acknowledgement it withholds (R328, R428). -/
structure ReflectAck where
  step : Nat
  missing : List (Nat × Nat)
deriving DecidableEq, Repr

/-- The offer that opens a reflection session (R427). -/
structure ReflectOffer where
  port : Nat
  serial : BitVec 128
  gen : Nat
  gens : List Nat
  /-- Image size of each stack. -/
  sizes : List Nat
  /-- As holder: HELD and the sender serial in its header. -/
  held : Nat
  heldSerial : BitVec 128
  /-- As holder: the step last applied to each shard (stack, shard, step), and whether its regions hold the sender's image (R426). -/
  tags : List (Nat × Nat × Nat)
  fits : Bool
deriving DecidableEq, Repr

/-- One block of reflection data (R428), for the image of R426 of one stack. -/
structure ReflectPiece where
  stack : Nat
  shard : Nat
  /-- Offset in the image. -/
  off : Nat
  /-- The bytes are a difference of masters (XOR), otherwise full values. -/
  diff : Bool
  /-- The codec block of R314 that carries the bytes. -/
  block : List Byte
  step : Nat
  /-- Blocks that the shard is sent in, and shards that are sent, the records of a stack being one of them. -/
  blocks : Nat
  shards : Nat
deriving DecidableEq, Repr

/-- A resource that parity or a test checks (R210, R219, R502). -/
inductive Res where
  | core (c : Nat)
  | bank (g b : Nat)
  | die (s : Nat) (dense : Bool) (d : Nat)
  | laneGroup (q k : Nat)
  | pipeline (s p : Nat)
  | cipherCore (d k : Nat)
  | mgmtCore (i : Nat)
  | builtinTest (n : Nat)
  | column (c a j : Nat)
  | rfEntry (c e : Nat)
  | linkLane (n k : Nat)
  | portLogic (n : Nat)
  | pstDie (i : Nat)
  | pstRecord (i : Nat)
deriving DecidableEq, Repr

/-- A parity mismatch: what was checked, the physical address of the word where it lies in memory, the
V register where it lies in a register file, the cluster engine that reads a bank, and how many of the three replays fail. -/
structure Mismatch where
  res : Res
  pa : Option Nat
  eng : Nat
  failures : Nat
  /-- The 32-bit word of a register file, where no address names it: of a V register's entry 0 to 127; of a core the words of S0
  to S63, X0 to X31 and P0 to P15, then the counters T0 to T63. -/
  word : Nat
deriving DecidableEq, Repr

/-- The domains whose PLLs R468 names. -/
inductive PllDomain where
  | compute | mortar | stackLogic | link | ethernet | ioDie
deriving DecidableEq, Repr

/-- How a refill stream ended (R436). -/
inductive RefillResult where
  | complete | stale | sizesDiffer
deriving DecidableEq, Repr


/-- The commands of the block: one constructor for each row of spec/opcode_table.json, in its order. -/
inductive Instr where
  /-- QUIESCE (R33). -/
  | quiesce (e : Env) (p : List Byte)
  /-- RESUME (R33). -/
  | resume (e : Env) (p : List Byte)
  /-- FENCE_LINKS (R306). -/
  | fenceLinks (e : Env) (p : List Byte)
  /-- PARKING_END (R404). -/
  | parkingEnd
  /-- SESS_OPEN (R397). -/
  | sessOpen (e : Env) (p : List Byte)
  /-- SESS_CONFIRM (R397). -/
  | sessConfirm (e : Env) (p : List Byte)
  /-- SESS_CLOSE (R398). -/
  | sessClose (e : Env) (p : List Byte)
  /-- SESS_PING (R400). -/
  | sessPing (e : Env) (p : List Byte)
  /-- EVENT_MASK (R400). -/
  | eventMask (e : Env) (p : List Byte)
  /-- EVENT_READ (R403). -/
  | eventRead (e : Env) (p : List Byte)
  /-- REG_READ (R207). -/
  | regRead (e : Env) (p : List Byte)
  /-- REG_WRITE (R207). -/
  | regWrite (e : Env) (p : List Byte)
  /-- PLAN_WRITE (R253). -/
  | planWrite (e : Env) (p : List Byte)
  /-- PLAN_READ (R400). -/
  | planRead (e : Env) (p : List Byte)
  /-- PLAN_COMMIT (R254). -/
  | planCommit (e : Env) (p : List Byte)
  /-- PLAN_RELEASE (R258). -/
  | planRelease (e : Env) (p : List Byte)
  /-- STEP_START (R400). -/
  | stepStart (e : Env) (p : List Byte)
  /-- STEP_STOP (R400). -/
  | stepStop (e : Env) (p : List Byte)
  /-- STEP_STATUS (R400). -/
  | stepStatus (e : Env) (p : List Byte)
  /-- EVAL_READ (R400). -/
  | evalRead (e : Env) (p : List Byte)
  /-- EVAL_STATUS (R400). -/
  | evalStatus (e : Env) (p : List Byte)
  /-- FN_RESET (R38). -/
  | fnReset (e : Env) (p : List Byte)
  /-- FUL_OPEN (R343). -/
  | fulOpen (e : Env) (p : List Byte)
  /-- FUL_CLOSE (R400). -/
  | fulClose (e : Env) (p : List Byte)
  /-- FUL_STATUS (R400). -/
  | fulStatus (e : Env) (p : List Byte)
  /-- FW_WRITE (R455). -/
  | fwWrite (e : Env) (p : List Byte)
  /-- FW_READ (R454). -/
  | fwRead (e : Env) (p : List Byte)
  /-- FW_ERASE (R455). -/
  | fwErase (e : Env) (p : List Byte)
  /-- FW_STAGE (R456). -/
  | fwStage (e : Env) (p : List Byte)
  /-- FW_UNSTAGE (R456). -/
  | fwUnstage (e : Env) (p : List Byte)
  /-- FW_STATUS (R454). -/
  | fwStatus (e : Env) (p : List Byte)
  /-- FW_MANIFEST (R454). -/
  | fwManifest (e : Env) (p : List Byte)
  /-- ID_CERT (R463). -/
  | idCert (e : Env) (p : List Byte)
  /-- ID_KEM (R463). -/
  | idKem (e : Env) (p : List Byte)
  /-- ROOT_PROVISION (R366). -/
  | rootProvision (e : Env) (p : List Byte)
  /-- ATTEST_QUOTE (R464). -/
  | attestQuote (e : Env) (p : List Byte)
  /-- SPR_REPORT (R438). -/
  | sprReport (e : Env) (p : List Byte)
  /-- BUDDY_SET (R424). -/
  | buddySet (e : Env) (p : List Byte)
  /-- REFILL_SOURCE (R436). -/
  | refillSource (e : Env) (p : List Byte)
  /-- REFILL_TARGET (R436). -/
  | refillTarget (e : Env) (p : List Byte)
  /-- REPAIR_DONE (R435). -/
  | repairDone (e : Env) (p : List Byte)
  /-- LNK_RETRAIN (R400). -/
  | lnkRetrain (e : Env) (p : List Byte)
  /-- LNK_UNFENCE (R400). -/
  | lnkUnfence (e : Env) (p : List Byte)
  /-- LNK_IDENT (R400). -/
  | lnkIdent (e : Env) (p : List Byte)
  /-- ING_STATUS (R400). -/
  | ingStatus (e : Env) (p : List Byte)
  /-- ING_SEEK (R407). -/
  | ingSeek (e : Env) (p : List Byte)
  /-- ING_ENDPOINT (R400). -/
  | ingEndpoint (e : Env) (p : List Byte)
  /-- STRANGER_FRAME (R391). -/
  | strangerFrame (f : Frame)
  /-- ARP_REQUEST (R387). -/
  | arpRequest (port : Nat) (senderMac : BitVec 48) (senderIp targetIp : W32)
  /-- NEIGHBOUR_SOLICITATION (R387). -/
  | neighbourSolicitation (port : Nat) (srcMac : BitVec 48) (srcIp targetIp : BitVec 128)
  /-- PFC_FRAME (R390). -/
  | pfcFrame (port : Nat) (enable : BitVec 8) (quanta : List Nat)
  /-- SESSION_OPENING_TIMEOUT (R397). -/
  | sessionOpeningTimeout (ctx : Nat)
  /-- SESSION_IDLE_TIMEOUT (R398). -/
  | sessionIdleTimeout (ctx : Nat)
  /-- WAIT_TOKEN (R92). -/
  | waitToken (c : Nat)
  /-- NOP (R78). -/
  | slotNop (c slot : Nat)
  /-- WLOAD (R80). -/
  | mWload (c a : Nat)
  /-- MAC (R112). -/
  | mMac (c a : Nat)
  /-- L1 (R112). -/
  | mL1 (c a : Nat)
  /-- SQD (R112). -/
  | mSqd (c a : Nat)
  /-- MINPLUS (R112). -/
  | mMinplus (c a : Nat)
  /-- MAXPLUS (R112). -/
  | mMaxplus (c a : Nat)
  /-- HAM (R112). -/
  | mHam (c a : Nat)
  /-- CMPC (R112). -/
  | mCmpc (c a : Nat)
  /-- DRAIN (R129). -/
  | mDrain (c a : Nat)
  /-- INIT (R115). -/
  | mInit (c a : Nat)
  /-- ADD (R144). -/
  | vAdd (c ve : Nat)
  /-- SUB (R144). -/
  | vSub (c ve : Nat)
  /-- MUL (R144). -/
  | vMul (c ve : Nat)
  /-- FMA (R144). -/
  | vFma (c ve : Nat)
  /-- MIN (R144). -/
  | vMin (c ve : Nat)
  /-- MAX (R144). -/
  | vMax (c ve : Nat)
  /-- ABS (R144). -/
  | vAbs (c ve : Nat)
  /-- NEG (R144). -/
  | vNeg (c ve : Nat)
  /-- ADDS (R144). -/
  | vAdds (c ve : Nat)
  /-- MULS (R144). -/
  | vMuls (c ve : Nat)
  /-- DIV (R144). -/
  | vDiv (c ve : Nat)
  /-- SQRT (R144). -/
  | vSqrt (c ve : Nat)
  /-- RCP (R144). -/
  | vRcp (c ve : Nat)
  /-- RSQRT (R144). -/
  | vRsqrt (c ve : Nat)
  /-- EXP (R144). -/
  | vExp (c ve : Nat)
  /-- LOG (R144). -/
  | vLog (c ve : Nat)
  /-- TANH (R144). -/
  | vTanh (c ve : Nat)
  /-- SIGMOID (R144). -/
  | vSigmoid (c ve : Nat)
  /-- GELU (R144). -/
  | vGelu (c ve : Nat)
  /-- SILU (R144). -/
  | vSilu (c ve : Nat)
  /-- RELU (R144). -/
  | vRelu (c ve : Nat)
  /-- AND (R144). -/
  | vAnd (c ve : Nat)
  /-- OR (R144). -/
  | vOr (c ve : Nat)
  /-- XOR (R144). -/
  | vXor (c ve : Nat)
  /-- SHL (R144). -/
  | vShl (c ve : Nat)
  /-- SHR (R144). -/
  | vShr (c ve : Nat)
  /-- SRA (R144). -/
  | vSra (c ve : Nat)
  /-- POPC (R144). -/
  | vPopc (c ve : Nat)
  /-- CMPLT (R146). -/
  | vCmplt (c ve : Nat)
  /-- CMPLE (R146). -/
  | vCmple (c ve : Nat)
  /-- CMPEQ (R146). -/
  | vCmpeq (c ve : Nat)
  /-- CMPNE (R146). -/
  | vCmpne (c ve : Nat)
  /-- SEL (R146). -/
  | vSel (c ve : Nat)
  /-- PAND (R146). -/
  | vPand (c ve : Nat)
  /-- POR (R146). -/
  | vPor (c ve : Nat)
  /-- PXOR (R146). -/
  | vPxor (c ve : Nat)
  /-- PNOT (R146). -/
  | vPnot (c ve : Nat)
  /-- ISNAN (R146). -/
  | vIsnan (c ve : Nat)
  /-- PFIRST (R146). -/
  | vPfirst (c ve : Nat)
  /-- PTAIL (R146). -/
  | vPtail (c ve : Nat)
  /-- CVT (R147). -/
  | vCvt (c ve : Nat)
  /-- QCVT (R147). -/
  | vQcvt (c ve : Nat)
  /-- AMAX (R147). -/
  | vAmax (c ve : Nat)
  /-- RSUM (R152). -/
  | vRsum (c ve : Nat)
  /-- RSUMSQ (R152). -/
  | vRsumsq (c ve : Nat)
  /-- RPROD (R152). -/
  | vRprod (c ve : Nat)
  /-- RMAX (R152). -/
  | vRmax (c ve : Nat)
  /-- RMIN (R152). -/
  | vRmin (c ve : Nat)
  /-- RARGMAX (R154). -/
  | vRargmax (c ve : Nat)
  /-- RARGMIN (R154). -/
  | vRargmin (c ve : Nat)
  /-- SCANSUM (R156). -/
  | vScansum (c ve : Nat)
  /-- SCANSUMX (R156). -/
  | vScansumx (c ve : Nat)
  /-- SCANMAX (R156). -/
  | vScanmax (c ve : Nat)
  /-- SCANMIN (R156). -/
  | vScanmin (c ve : Nat)
  /-- SOFTMAX (R157). -/
  | vSoftmax (c ve : Nat)
  /-- OSSTEP (R158). -/
  | vOsstep (c ve : Nat)
  /-- OSMERGE (R158). -/
  | vOsmerge (c ve : Nat)
  /-- OSNORM (R158). -/
  | vOsnorm (c ve : Nat)
  /-- MOV (R150). -/
  | vMov (c ve : Nat)
  /-- BCAST (R150). -/
  | vBcast (c ve : Nat)
  /-- MOVSV (R150). -/
  | vMovsv (c ve : Nat)
  /-- MOVVS (R150). -/
  | vMovvs (c ve : Nat)
  /-- ROT (R150). -/
  | vRot (c ve : Nat)
  /-- PERM (R150). -/
  | vPerm (c ve : Nat)
  /-- IOTA (R150). -/
  | vIota (c ve : Nat)
  /-- COMPRESS (R150). -/
  | vCompress (c ve : Nat)
  /-- LDV (R85). -/
  | ldLdv (c : Nat)
  /-- STV (R85). -/
  | ldStv (c : Nat)
  /-- LDS (R85). -/
  | ldLds (c : Nat)
  /-- STS (R85). -/
  | ldSts (c : Nat)
  /-- LDP (R85). -/
  | ldLdp (c : Nat)
  /-- STP (R85). -/
  | ldStp (c : Nat)
  /-- FEED (R85). -/
  | ldFeed (c : Nat)
  /-- FEEDV (R85). -/
  | ldFeedv (c : Nat)
  /-- END (R87). -/
  | ctlEnd (c : Nat)
  /-- LOOP (R90). -/
  | ctlLoop (c : Nat)
  /-- BR (R90). -/
  | ctlBr (c : Nat)
  /-- SLI (R87). -/
  | ctlSli (c : Nat)
  /-- SLIH (R87). -/
  | ctlSlih (c : Nat)
  /-- SADD (R87). -/
  | ctlSadd (c : Nat)
  /-- SSUB (R87). -/
  | ctlSsub (c : Nat)
  /-- SAND (R87). -/
  | ctlSand (c : Nat)
  /-- SOR (R87). -/
  | ctlSor (c : Nat)
  /-- SXOR (R87). -/
  | ctlSxor (c : Nat)
  /-- SSHL (R87). -/
  | ctlSshl (c : Nat)
  /-- SSHR (R87). -/
  | ctlSshr (c : Nat)
  /-- SSRA (R87). -/
  | ctlSsra (c : Nat)
  /-- SMUL (R87). -/
  | ctlSmul (c : Nat)
  /-- SADDI (R87). -/
  | ctlSaddi (c : Nat)
  /-- CTL_CMPEQ (R87). -/
  | ctlCmpeq (c : Nat)
  /-- CTL_CMPLT (R87). -/
  | ctlCmplt (c : Nat)
  /-- CTL_CMPLTU (R87). -/
  | ctlCmpltu (c : Nat)
  /-- XSET (R87). -/
  | ctlXset (c : Nat)
  /-- XADDI (R87). -/
  | ctlXaddi (c : Nat)
  /-- XGET (R87). -/
  | ctlXget (c : Nat)
  /-- SETTILE (R87). -/
  | ctlSettile (c : Nat)
  /-- SETKQ (R87). -/
  | ctlSetkq (c : Nat)
  /-- SIGNAL (R95). -/
  | ctlSignal (c : Nat)
  /-- TOKRD (R96). -/
  | ctlTokrd (c : Nat)
  /-- TOKSET (R96). -/
  | ctlTokset (c : Nat)
  /-- KICK (R166). -/
  | ctlKick (c : Nat)
  /-- FENCE (R87). -/
  | ctlFence (c : Nat)
  /-- TICK (R87). -/
  | ctlTick (c : Nat)
  /-- TOKEN_ARRIVAL (R94). -/
  | tokenArrival (c tok : Nat)
  /-- WAIT_TIMEOUT (R97). -/
  | waitTimeout (c : Nat)
  /-- CHAIN_RECORD (R124). -/
  | chainRecord (g : Nat) (record : List Byte)
  /-- ENGINE_TOKEN_ARRIVAL (R168). -/
  | engineTokenArrival (g eng tok : Nat)
  /-- ENGINE_WAIT_TIMEOUT (R168). -/
  | engineWaitTimeout (g eng : Nat)
  /-- COPY (R174). -/
  | dmaCopy (g eng : Nat)
  /-- SKEW (R175). -/
  | dmaSkew (g eng : Nat)
  /-- FILL (R175). -/
  | dmaFill (g eng : Nat)
  /-- GATHER (R177). -/
  | engGather (g : Nat)
  /-- SCATTER (R177). -/
  | engScatter (g : Nat)
  /-- SCATTER_ADD (R177). -/
  | engScatterAdd (g : Nat)
  /-- TRANSPOSE (R178). -/
  | engTranspose (g : Nat)
  /-- LOOKUP (R180). -/
  | engLookup (g : Nat)
  /-- SORT (R183). -/
  | engSort (g : Nat)
  /-- TOPK (R183). -/
  | engTopk (g : Nat)
  /-- SETSLOT (R184). -/
  | engSetslot (g : Nat)
  /-- GEN (R185). -/
  | engGen (g : Nat)
  /-- ENCODE (R187). -/
  | engEncode (g : Nat)
  /-- DECODE (R322). -/
  | engDecode (g : Nat)
  /-- SEND (R189). -/
  | engSend (g : Nat)
  /-- RECV_SUM (R190). -/
  | engRecvSum (g : Nat)
  /-- RECV_MAX (R190). -/
  | engRecvMax (g : Nat)
  /-- RECV_MIN (R190). -/
  | engRecvMin (g : Nat)
  /-- RECV_COPY (R190). -/
  | engRecvCopy (g : Nat)
  /-- MAP_SEND (R191). -/
  | engMapSend (g : Nat)
  /-- MAP_RECV (R191). -/
  | engMapRecv (g : Nat)
  /-- PHASE_START (R263). -/
  | phaseStart
  /-- UPDATE_DONE (R241). -/
  | updateDone (stack : Nat)
  /-- DIGEST_TRANSFER (R432). -/
  | digestTransfer (step : Nat) (shard : Nat) (pos : Nat × Nat × Nat) (flag : Nat) (digest : List Byte)
  /-- SHARD_COPY (R433). -/
  | shardCopy (stack shard : Nat) (image : ShardImage)
  /-- REFLECT_OFFER (R427). -/
  | reflectOffer (o : ReflectOffer)
  /-- REFLECTION_DATA (R428). -/
  | reflectionData (d : ReflectPiece)
  /-- REFLECT_ACK (R428). -/
  | reflectAck (a : ReflectAck)
  /-- FETCH_REQUEST (R430). -/
  | fetchRequest (port stack tensor first count : Nat)
  /-- FETCH_DATA (R430). -/
  | fetchData (stack tensor first : Nat) (image : ShardImage)
  /-- STEP_RERUN (R303). -/
  | stepRerun
  /-- PARITY_MISMATCH (R210). -/
  | parityMismatch (m : Mismatch)
  /-- SCRUB_READ (R214). -/
  | scrubRead (stack : Nat) (dense : Bool) (failures : Nat)
  /-- DIE_COPY_END (R221). -/
  | dieCopyEnd (stack : Nat) (dense : Bool)
  /-- SHADOW_TEST_DONE (R415). -/
  | shadowTestDone (g : Nat) (pass : Bool)
  /-- MGMT_WATCHDOG_EXPIRY (R418). -/
  | mgmtWatchdogExpiry
  /-- FUELLE_WATCHDOG_EXPIRY (R434). -/
  | fuelleWatchdogExpiry
  /-- FN_RESET_END (R434). -/
  | fnResetEnd (fn : Nat)
  /-- PST_WRITE_DONE (R443). -/
  | pstWriteDone (ok0 ok1 : Bool)
  /-- RESET_RELEASE (R482). -/
  | resetRelease (bpos : Nat) (meshOpen : Bool)
  /-- BOOT_COMPLETE (R31). -/
  | bootComplete
  /-- TEST_STEP_DONE (R460). -/
  | testStepDone (failed : Option W32)
  /-- CONFIRM_WINDOW_EXPIRY (R462). -/
  | confirmWindowExpiry
  /-- POR_N (R482). -/
  | porN (auxLow : Bool) (torn : Nat × Nat)
  /-- SYSRST_N (R482). -/
  | sysrstN
  /-- RAIL_RESET (R482). -/
  | railReset (rail : Nat)
  /-- DIP_ENTRY (R476). -/
  | dipEntry (low : BitVec 9)
  /-- DIP_RECOVERY (R477). -/
  | dipRecovery
  /-- DIP_TIMEOUT (R477). -/
  | dipTimeout (rail : Nat)
  /-- REFCLK_LOSS (R473). -/
  | refclkLoss (absent : Bool)
  /-- REFCLK_ABSENT_TIMEOUT (R473). -/
  | refclkAbsentTimeout
  /-- PLL_LOCK_LOSS (R485). -/
  | pllLockLoss (dom : PllDomain) (inst : Nat)
  /-- PLL_FAIL (R485). -/
  | pllFail (dom : PllDomain) (inst : Nat)
  /-- THERMAL_LEVEL (R480). -/
  | thermalLevel (d : Nat) (temp : Int)
  /-- MINOR_ALARM (R383). -/
  | minorAlarm (code : Nat)
  /-- MAJOR_ALARM (R384). -/
  | majorAlarm
  /-- KEY_REGEN_DONE (R383). -/
  | keyRegenDone
  /-- KEY_DERIVED (R380). -/
  | keyDerived (iod : Nat)
  /-- CIPHER_KAT (R379). -/
  | cipherKat (iod core : Nat) (ok : Bool)
  /-- SIGNAL_DETECT (R293). -/
  | signalDetect (port : Nat)
  /-- TRAINING_TIMEOUT (R293). -/
  | trainingTimeout (port : Nat)
  /-- IDENT_RESEND (R293). -/
  | identResend (port : Nat)
  /-- IDENT (R294). -/
  | ident (port : Nat) (f : Flit)
  /-- LINK_DOWN (R304). -/
  | linkDown (port : Nat)
  /-- LINK_LOST (R305). -/
  | linkLost (port : Nat)
  /-- FLIT_IDLE (R286). -/
  | flitIdle (port : Nat) (f : Flit)
  /-- FLIT_DATA (R302). -/
  | flitData (port : Nat) (f : Flit)
  /-- FLIT_MSG (R307). -/
  | flitMsg (port : Nat) (f : Flit)
  /-- FLIT_RDREQ (R309). -/
  | flitRdreq (port : Nat) (f : Flit)
  /-- FLIT_DRAIN (R24). -/
  | flitDrain (port : Nat) (f : Flit)
  /-- FLIT_DRAIN_ACK (R24). -/
  | flitDrainAck (port : Nat) (f : Flit)
  /-- LANE_SWAP (R291). -/
  | laneSwap (port : Nat) (f : Flit)
  /-- FUELLE_DATA (R349). -/
  | fuelleData (f : FPkt)
  /-- FUELLE_PARITY (R348). -/
  | fuelleParity (f : FPkt)
  /-- FUELLE_ACK (R350). -/
  | fuelleAck (f : FPkt)
  /-- FUELLE_OFFER (R345). -/
  | fuelleOffer (f : FPkt)
  /-- FUELLE_CLOSE (R344). -/
  | fuelleClose (f : FPkt)
  /-- FUELLE_JOIN (R357). -/
  | fuelleJoin (f : FPkt)
  /-- FUELLE_PACED_SEND (R353). -/
  | fuellePacedSend (ctx : Nat)
  /-- FUELLE_ACK_TIMER (R350). -/
  | fuelleAckTimer (ctx : Nat)
  /-- FUELLE_OFFER_TIMER (R344). -/
  | fuelleOfferTimer (ctx : Nat)
  /-- FUELLE_RTO_EXPIRY (R350). -/
  | fuelleRtoExpiry (ctx : Nat)
  /-- FUELLE_REKEY (R376). -/
  | fuelleRekey (ctx : Nat)
  /-- ROUND_QUEUED (R334). -/
  | roundQueued
  /-- ROUND_READY (R338). -/
  | roundReady
  /-- JOIN_END (R358). -/
  | joinEnd
  /-- JOIN_LIMIT_EXPIRY (R358). -/
  | joinLimitExpiry
  /-- INGEST_DATA (R408). -/
  | ingestData (q : IPkt)
  /-- INGEST_ERROR (R408). -/
  | ingestError (q : IPkt)
  /-- INGEST_READ_TIMEOUT (R408). -/
  | ingestReadTimeout (stream : Nat) (record : Nat)
  /-- GLB_LOSS_SCALE (R63). -/
  | glbLossScale (e : Env) (v : W32)
  /-- GLB_LS_POLICY (R63). -/
  | glbLsPolicy (e : Env) (v : W32)
  /-- CORE_WAIT_LIMIT (R106). -/
  | coreWaitLimit (e : Env) (c : Nat) (v : W32)
  /-- EPILOGUE_SET_WRITE (R128). -/
  | epilogueSetWrite (e : Env) (c set reg : Nat) (v : W32)
  /-- UPD_HP_WRITE (R235). -/
  | updHpWrite (e : Env) (stack set field : Nat) (v : W32)
  /-- GLB_PLAN_VARIANT (R260). -/
  | glbPlanVariant (e : Env) (v : W32)
  /-- GLB_EVAL_CTL (R260). -/
  | glbEvalCtl (e : Env) (v : W32)
  /-- GLB_COMMIT_MARK (R244). -/
  | glbCommitMark (e : Env) (v : W32)
  /-- GLB_MARK_INTERVAL (R244). -/
  | glbMarkInterval (e : Env) (v : W32)
  /-- SPR_LASTING_WINDOW (R218). -/
  | sprLastingWindow (e : Env) (v : W32)
  /-- SPR_LASTING_EVENTS (R218). -/
  | sprLastingEvents (e : Env) (v : W32)
  /-- STK_SCRUB_CTL (R224). -/
  | stkScrubCtl (e : Env) (stack : Nat) (v : W32)
  /-- LNK_MISWIRE_POLICY (R298). -/
  | lnkMiswirePolicy (e : Env) (v : W32)
  /-- LNK_DOWN_LIMIT (R312). -/
  | lnkDownLimit (e : Env) (v : W32)
  /-- FUL_UDP_PORT (R361). -/
  | fulUdpPort (e : Env) (v : W32)
  /-- FUL_ROUND_BASE (R361). -/
  | fulRoundBase (e : Env) (v : W32)
  /-- FUL_PACE (R361). -/
  | fulPace (e : Env) (v : W32)
  /-- FUL_JOIN_LIMIT (R361). -/
  | fulJoinLimit (e : Env) (v : W32)
  /-- ISX_UDP_PORT (R411). -/
  | isxUdpPort (e : Env) (v : W32)
  /-- ISX_IDLE_LIMIT (R411). -/
  | isxIdleLimit (e : Env) (v : W32)
  /-- ETH_IPV4 (R412). -/
  | ethIpv4 (e : Env) (ep : Nat) (v : W32)
  /-- ETH_IPV6 (R412). -/
  | ethIpv6 (e : Env) (ep w : Nat) (v : W32)
  /-- ETH_VLAN (R412). -/
  | ethVlan (e : Env) (ep : Nat) (v : W32)
  /-- ETH_NEXTHOP_LO (R412). -/
  | ethNexthopLo (e : Env) (ep : Nat) (v : W32)
  /-- ETH_NEXTHOP_HI (R412). -/
  | ethNexthopHi (e : Env) (ep : Nat) (v : W32)
  /-- ETH_DSCP (R412). -/
  | ethDscp (e : Env) (ep : Nat) (v : W32)
  /-- ETH_PFC (R412). -/
  | ethPfc (e : Env) (ep : Nat) (v : W32)
  /-- PST_WEAR_ADDR (R465). -/
  | pstWearAddr (e : Env) (v : W32)
  /-- PLAN_COMMIT_DONE (R254). -/
  | planCommitDone
  /-- FW_ERASE_DONE (R451). -/
  | fwEraseDone
  /-- REFILL_DONE (R436). -/
  | refillDone (result : RefillResult)
  /-- UNWRAP_DONE (R365). -/
  | unwrapDone
  /-- QUOTE_DONE (R464). -/
  | quoteDone
  /-- PLL_RELOCK (R485). -/
  | pllRelock (dom : PllDomain) (inst : Nat)
  /-- REFCLK_RETURN (R471). -/
  | refclkReturn
  /-- ETH_LINK_CHANGE (R493). -/
  | ethLinkChange (ep : Nat) (up : Bool)
deriving DecidableEq, Repr

end Sys2Proof
end

