-- ==== Sys2Proof/Config.lean ====
section
/-!
DEFINITION. What a part fixes at manufacture and the values that spec/ leaves open. Every constant here is
opaque: no proof can see its value, so a claim holds for every value of it. The fuses (R362, R410, log 7), the random
bit generator (R371), the randomness of signatures (log 14), and
the free values of unspecified storage and results (R72, R103, R213, R461, R483; log 4, log 5).
-/
namespace Sys2Proof.Config

/-- A byte of storage whose contents a reset made unspecified or lost: generation, address (R483, log 4). -/
opaque unspecByte (gen addr : Nat) : Byte

/-- A core's scalar, address or predicate register after its contents became unspecified (R72): generation, core,
class (0 S, 1 X, 2 P), number. -/
opaque unspecReg (gen core cls n : Nat) : BitVec 512

/-- A byte of a core's V registers after their contents became unspecified (R72): generation, core, byte. -/
opaque unspecV (gen core addr : Nat) : Byte

/-- Byte i of the free value with the given ticket (log 5). -/
opaque freeByte (ticket i : Nat) : Byte

/-- The random bit generator: the salt with the given ticket (R371, R397). -/
opaque randomSalt (ticket : Nat) : W64

/-- The fused root secret of 256 bits (R362, R368). -/
opaque fusedSecret : BitVec 256

/-- The device serial of 16 bytes (R463). -/
opaque serial : BitVec 128

/-- MAC address of port p (R410). -/
opaque mac (p : Nat) : BitVec 48

/-- The part is MQ840-E0 (R1, R467). -/
opaque engineering : Bool

/-- SHA3-256 of the production and of the engineering firmware key that the boot ROM holds (R458). -/
opaque prodKeyHash : List Byte
opaque engKeyHash : List Byte

/-- Issuer, time of issue and bytes of the signature of the identity certificate (R463). -/
opaque certIssuer : W32
opaque certIssued : W64
opaque certSignature (i : Nat) : Byte

/-- The randomness of an ML-DSA-44 signature with a context string, which spec/ leaves open: 32 bytes (R363, R464, log 14). -/
opaque signRandom (ctx msg : List Byte) : BitVec 256

/-- The error, in units in the last place of the result, of a function that spec/ gives only with an accuracy
(R130, R144): function, operand code. The meaning keeps it within the stated bound. -/
opaque ulpError (fn code : Nat) : Int

/-- A byte of the flash as shipped (R451, log 8): area, offset. -/
opaque shippedFlash (area off : Nat) : Byte

/-- The lengths of a codec part's code tables, where the part's layout is the firmware image's own (R320). -/
opaque codecTables (part : List Byte) : List (List Nat)

/-- A receive window that firmware opens for its self-test and the confirmation test step, which spec/ names without a number, a
place or a length (R307, log 76): place and length in the test scratch of R461. -/
opaque testWindow (w : Nat) : Option (Nat × Nat)

/-- The cluster whose engine an arrival token names where the transfer lands outside cluster memories and operand caches
(R188, log 24): RTOK, destination. -/
opaque tokenCluster (rtok dst : Nat) : Nat

/-- Where in the staging area of a partner slot a received packet lies: R349 gives no layout of the group buffers (log 59).
Round, group, index. -/
opaque stagePlace (round group index : Nat) : Nat

/-- Whether an alarm falls into the seal or open of a packet of its tick (R385, log 85): ticket, count of the packet. -/
opaque alarmMeets (ticket count : Nat) : Bool

/-- Priority of the tag of an ARP reply or a neighbour advertisement, which belong to none of the classes of R389 (log 86): port. -/
opaque arpPriority (port : Nat) : BitVec 3

end Sys2Proof.Config
end

