-- ==== Sys2Proof/Machine/Crypto.lean ====
section
/-!
DEFINITION. The checks, digests, ciphers and generators that spec/ names by their standards: CRC-32C, SHA3-256 of
FIPS 202 (R239, R252), KMAC256 of SP 800-185 (R368), AES-256-GCM (R362 to R381) and the field of R348.
-/
namespace Sys2Proof.Machine

/-! ### CRC-32C -/

/-- Eight steps of the reflected CRC-32C register. -/
def crcByteStep : Nat → Nat → Nat
  | 0, c => c
  | n + 1, c => crcByteStep n (if c % 2 = 1 then (c >>> 1) ^^^ 0x82F63B78 else c >>> 1)

/-- The CRC register after a byte string. -/
def crcFold (c : Nat) (bs : List Byte) : Nat := bs.foldl (fun c b => crcByteStep 8 (c ^^^ b.toNat)) c

/-- CRC-32C of a byte string. -/
@[irreducible] def crc32c (bs : List Byte) : Nat := crcFold 0xFFFFFFFF bs ^^^ 0xFFFFFFFF

/-! ### Keccak -/

/-- Lane (x, y) of a state, which is kept row by row. -/
def laneAt (a : List W64) (x y : Nat) : W64 := a.getD (x % 5 + 5 * (y % 5)) 0

/-- A state from its lanes. -/
def ofLanes (f : Nat → Nat → W64) : List W64 := (List.range 25).map fun i => f (i % 5) (i / 5)

@[simp] theorem ofLanes_length (f : Nat → Nat → W64) : (ofLanes f).length = 25 := by simp [ofLanes]

/-- Column x folded by XOR. -/
def columnParity (a : List W64) (x : Nat) : W64 :=
  (List.range 5).foldl (fun w y => w ^^^ laneAt a x y) 0

/-- The step theta: each lane takes the parity of the column before it and that of the column after it, turned by
one bit. -/
def theta (a : List W64) : List W64 :=
  ofLanes fun x y => laneAt a x y ^^^ columnParity a (x + 4) ^^^ (columnParity a (x + 1)).rotateLeft 1

/-- The steps rho and pi in one walk: the lane at (x, y) is turned by the triangular number of its place on the walk
and lands at (y, 2x + 3y), from where the walk goes on; n lanes are left, and b is the state being filled. -/
def rhoPiWalk (a : List W64) : Nat → Nat → Nat → List W64 → List W64
  | 0, _, _, b => b
  | n + 1, x, y, b =>
    let y' := (2 * x + 3 * y) % 5
    rhoPiWalk a n y y' (b.set (y + 5 * y') ((laneAt a x y).rotateLeft ((24 - n) * (25 - n) / 2)))

/-- The step chi on every row. -/
def chi (a : List W64) : List W64 :=
  ofLanes fun x y => laneAt a x y ^^^ (laneAt a (x + 2) y &&& ~~~ laneAt a (x + 1) y)

/-- The register that makes the round constants: multiplication by x modulo x^8 + x^6 + x^5 + x^4 + 1, n times. -/
def lfsr : Nat → Nat → Nat
  | 0, r => r
  | n + 1, r => lfsr n (if r ≥ 128 then (2 * r) ^^^ 0x171 else 2 * r)

/-- The constant of a round from the register at its start: output bit j stands at place 2^j - 1. -/
def roundConst (r : Nat) : W64 :=
  (List.range 7).foldl (fun w j => w ||| BitVec.ofNat 64 ((lfsr j r % 2) <<< (2 ^ j - 1))) 0

/-- The step iota. -/
def iota (r : Nat) (a : List W64) : List W64 := a.set 0 (laneAt a 0 0 ^^^ roundConst r)

/-- Rounds still to make, with the register of their constants. -/
def keccakRounds : Nat → Nat → List W64 → List W64
  | 0, _, a => a
  | n + 1, r, a =>
    let t := theta a
    keccakRounds n (lfsr 7 r) (iota r (chi (rhoPiWalk t 24 1 0 t)))

theorem keccakRounds_length : ∀ (n r : Nat) (a : List W64), a.length = 25 → (keccakRounds n r a).length = 25
  | 0, _, _, h => h
  | n + 1, _, _, _ => keccakRounds_length n _ _ (by simp [iota, chi])

/-- Keccak-f[1600]: 24 rounds. -/
def keccakF (a : List W64) : List W64 := keccakRounds 24 1 a

/-- XOR of a block of `rate` bytes into the state. -/
def absorbBlock (rate : Nat) (a : List W64) (blk : List Byte) : List W64 :=
  keccakF ((List.range 25).map fun i =>
    if 8 * i < rate then a.getD i 0 ^^^ BitVec.ofNat 64 (leNat ((blk.drop (8 * i)).take 8)) else a.getD i 0)

/-- Absorbs whole blocks; the number of blocks is the fuel. -/
def absorb (rate : Nat) : Nat → List W64 → List Byte → List W64
  | 0, a, _ => a
  | n + 1, a, bs => absorb rate n (absorbBlock rate a (bs.take rate)) (bs.drop rate)

/-- Blocks of `rate` bytes that the sponge gives out. -/
def squeeze (rate : Nat) : Nat → List W64 → List Byte
  | 0, _ => []
  | n + 1, a => (a.take (rate / 8)).flatMap (fun l => leBytes 8 l.toNat) ++ squeeze rate n (keccakF a)

/-- The sponge with a rate in bytes and the given domain byte, `out` bytes out. -/
def sponge (rate : Nat) (domain : Byte) (out : Nat) (msg : List Byte) : List Byte :=
  let padLen := rate - msg.length % rate
  let pad : List Byte :=
    if padLen = 1 then [domain ||| 0x80] else domain :: (List.replicate (padLen - 2) 0 ++ [0x80])
  let m := msg ++ pad
  (squeeze rate ((out + rate - 1) / rate) (absorb rate (m.length / rate) (List.replicate 25 0) m)).take out

/-- The sponge with rate 136 bytes, 32 bytes out. -/
def keccak256 (domain : Byte) (msg : List Byte) : List Byte := sponge 136 domain 32 msg

/-- SHA3-512, SHAKE128 and SHAKE256 (FIPS 202), which FIPS 203 and FIPS 204 use. -/
@[irreducible] def sha3Long (msg : List Byte) : List Byte := sponge 72 0x06 64 msg
@[irreducible] def shake128 (out : Nat) (msg : List Byte) : List Byte := sponge 168 0x1F out msg
@[irreducible] def shake256 (out : Nat) (msg : List Byte) : List Byte := sponge 136 0x1F out msg

/-- SHA3-256 (FIPS 202). -/
@[irreducible] def sha3 (msg : List Byte) : List Byte := keccak256 0x06 msg

/-- Bytes of a number, most significant first, at least one. -/
def encBytes (n : Nat) : List Byte :=
  if n < 256 then beBytes 1 n else if n < 65536 then beBytes 2 n else beBytes 4 n

/-- left_encode, right_encode, encode_string and bytepad of SP 800-185. -/
def leftEncode (n : Nat) : List Byte := BitVec.ofNat 8 (encBytes n).length :: encBytes n
def rightEncode (n : Nat) : List Byte := encBytes n ++ [BitVec.ofNat 8 (encBytes n).length]
def encodeString (s : List Byte) : List Byte := leftEncode (8 * s.length) ++ s
def bytepad (x : List Byte) : List Byte :=
  let y := leftEncode 136 ++ x
  y ++ List.replicate ((136 - y.length % 136) % 136) 0

/-- ASCII bytes of a string. -/
def ascii (s : String) : List Byte := s.toList.map fun c => BitVec.ofNat 8 c.toNat

/-- KMAC256(K, X, 256, S). -/
@[irreducible] def kmac256 (k x s : List Byte) : List Byte :=
  keccak256 0x04
    (bytepad (encodeString (ascii "KMAC") ++ encodeString s) ++ bytepad (encodeString k) ++ x ++ rightEncode 256)

/-! ### Fields of 2^8 elements -/

/-- Product in GF(2^8) under a reducing polynomial of degree 8, given with its top bit. -/
def gfMul (poly : Nat) : Nat → Nat → Nat → Nat → Nat
  | 0, _, _, acc => acc
  | n + 1, a, b, acc =>
    let acc' := if b % 2 = 1 then acc ^^^ a else acc
    let a' := if a ≥ 128 then ((2 * a) ^^^ poly) else 2 * a
    gfMul poly n a' (b / 2) acc'

/-- Power in GF(2^8) by repeated product. -/
def gfPow (poly a : Nat) : Nat → Nat
  | 0 => 1
  | n + 1 => gfMul poly 8 (gfPow poly a n) a 0

/-- Inverse in GF(2^8), with 0 for 0. -/
def gfInv (poly a : Nat) : Nat := gfPow poly a 254

/-! ### AES-256-GCM -/

/-- The S-box of AES at one byte. -/
def aesSubOne (b : Nat) : Nat :=
  let i := gfInv 0x11B b
  let r (n : Nat) := ((i <<< n) ||| (i >>> (8 - n))) % 256
  (i ^^^ r 1 ^^^ r 2 ^^^ r 3 ^^^ r 4) ^^^ 0x63

/-- The S-box of AES. -/
def aesSbox : List Nat := (List.range 256).map aesSubOne

def aesSub (b : Nat) : Nat := aesSbox.getD b 0

def aesTimes2 (b : Nat) : Nat := if b ≥ 128 then ((2 * b) ^^^ 0x11B) else 2 * b

/-- Key expansion of AES-256: words of 4 bytes, newest first; n words are still to be made. -/
def aesExpand : Nat → Nat → List (List Nat) → List (List Nat)
  | 0, _, ws => ws
  | n + 1, i, ws =>
    let prev := ws.headD []
    let t :=
      if i % 8 = 0 then
        let rot := (prev.drop 1 ++ prev.take 1).map aesSub
        (rot.headD 0 ^^^ gfPow 0x11B 2 (i / 8 - 1)) :: rot.drop 1
      else if i % 8 = 4 then prev.map aesSub
      else prev
    aesExpand n (i + 1) (List.zipWith (· ^^^ ·) (ws.getD 7 []) t :: ws)

/-- Groups of four. -/
def quads : Nat → List Nat → List (List Nat)
  | 0, _ => []
  | n + 1, l => l.take 4 :: quads n (l.drop 4)

/-- The 15 round keys of 16 bytes. -/
def aesRoundKeys (key : List Nat) : List (List Nat) :=
  let ws := (aesExpand 52 8 (quads 8 key).reverse).reverse
  (List.range 15).map fun r => ((ws.drop (4 * r)).take 4).flatten

def shiftRows (s : List Nat) : List Nat :=
  (List.range 16).map fun i => s.getD ((i + 4 * (i % 4)) % 16) 0

def mixColumns (s : List Nat) : List Nat :=
  (List.range 16).map fun i =>
    let c := 4 * (i / 4)
    let at' (k : Nat) := s.getD (c + (i + k) % 4) 0
    aesTimes2 (at' 0) ^^^ (aesTimes2 (at' 1) ^^^ at' 1) ^^^ at' 2 ^^^ at' 3

/-- AES encryption of one block under expanded round keys. -/
def aesBlockWith (rks : List (List Nat)) (blk : List Nat) : List Nat :=
  let s0 := List.zipWith (· ^^^ ·) blk (rks.headD [])
  let s1 := ((rks.drop 1).take 13).foldl
    (fun s rk => List.zipWith (· ^^^ ·) (mixColumns (shiftRows (s.map aesSub))) rk) s0
  List.zipWith (· ^^^ ·) (shiftRows (s1.map aesSub)) (rks.getD 14 [])

/-- Product in GF(2^128) of GCM, bit 0 the most significant bit of the first byte; n bits of x are left. -/
def ghashMul : Nat → BitVec 128 → BitVec 128 → BitVec 128 → BitVec 128
  | 0, _, _, z => z
  | n + 1, x, v, z =>
    let z' := if x.getLsbD n then z ^^^ v else z
    let v' := if v.getLsbD 0 then (v >>> 1) ^^^ (0xE1 : BitVec 128) <<< 120 else v >>> 1
    ghashMul n x v' z'

/-- Blocks of 16 bytes, the last padded with zero bytes. -/
def blocks16 : Nat → List Byte → List (List Byte)
  | 0, _ => []
  | n + 1, bs => ((bs.take 16) ++ List.replicate (16 - bs.length) 0) :: blocks16 n (bs.drop 16)

def toBlocks (bs : List Byte) : List (List Byte) := blocks16 ((bs.length + 15) / 16) bs

def blk128 (b : List Byte) : BitVec 128 := BitVec.ofNat 128 (beNat b)

/-- Counter-mode key stream and XOR. -/
def ctrXor (rks : List (List Nat)) (j0 : List Byte) (bs : List Byte) : List Byte :=
  let n := (bs.length + 15) / 16
  let stream := (List.range n).flatMap fun i =>
    (aesBlockWith rks ((j0.take 12 ++ beBytes 4 (beNat (j0.drop 12) + 1 + i)).map BitVec.toNat)).map
      (BitVec.ofNat 8)
  List.zipWith (· ^^^ ·) bs stream

/-- The GCM tag of a ciphertext. -/
def gcmTag (rks : List (List Nat)) (j0 aad ct : List Byte) : List Byte :=
  let h := blk128 ((aesBlockWith rks (List.replicate 16 0)).map (BitVec.ofNat 8))
  let y := (toBlocks aad ++ toBlocks ct ++ [beBytes 8 (8 * aad.length) ++ beBytes 8 (8 * ct.length)]).foldl
    (fun (y : BitVec 128) b => ghashMul 128 (y ^^^ blk128 b) h 0) 0
  let e := blk128 ((aesBlockWith rks (j0.map BitVec.toNat)).map (BitVec.ofNat 8))
  beBytes 16 (y ^^^ e).toNat

/-- AES-256-GCM with a nonce of 12 bytes: ciphertext and tag of 16 bytes. -/
@[irreducible] def gcmSeal (key nonce aad pt : List Byte) : List Byte × List Byte :=
  let rks := aesRoundKeys (key.map BitVec.toNat)
  let j0 := nonce ++ [0, 0, 0, 1]
  let ct := ctrXor rks j0 pt
  (ct, gcmTag rks j0 aad ct)

/-- AES-256-GCM opening of a ciphertext: the plaintext where the tag verifies. -/
@[irreducible] def gcmOpen (key nonce aad ct tag : List Byte) : Option (List Byte) :=
  let rks := aesRoundKeys (key.map BitVec.toNat)
  let j0 := nonce ++ [0, 0, 0, 1]
  if gcmTag rks j0 aad ct = tag then some (ctrXor rks j0 ct) else none

/-! ### Key derivation (R368, R369) -/

/-- The label fields of R369. -/
structure KdfLabel where
  use : Nat
  dir : Nat
  epoch : Nat
  sched : Nat
  addrA : BitVec 128
  ctxA : Nat
  addrB : BitVec 128
  ctxB : Nat
  saltA : W64
  saltB : W64

/-- A label with every field but USE and ADDR_A zero (R370, USE 0x04 to 0x07). -/
def KdfLabel.plain (use : Nat) (addrA : BitVec 128) : KdfLabel :=
  { use := use, dir := 0, epoch := 0, sched := 0, addrA := addrA, ctxA := 0, addrB := 0, ctxB := 0, saltA := 0,
    saltB := 0 }

/-- The 80-byte input X of R369. -/
def kdfInput (l : KdfLabel) : List Byte :=
  beBytes 4 1 ++ ascii "MALQUEL1" ++ [0, BitVec.ofNat 8 l.use, BitVec.ofNat 8 l.dir, 0] ++ beBytes 4 l.epoch ++
  beBytes 4 l.sched ++ beBytes 16 l.addrA.toNat ++ beBytes 2 l.ctxA ++ beBytes 16 l.addrB.toNat ++ beBytes 2 l.ctxB ++
  beBytes 8 l.saltA.toNat ++ beBytes 8 l.saltB.toNat ++ beBytes 4 0x100

/-- KDF(K, label) of R368. -/
def kdf (k : List Byte) (l : KdfLabel) : List Byte := kmac256 k (kdfInput l) (ascii "KDF")

/-- The nonce of R373. -/
def nonceOf (use dir origin epoch seq : Nat) : List Byte :=
  [BitVec.ofNat 8 use, BitVec.ofNat 8 dir, BitVec.ofNat 8 origin, 0] ++ beBytes 4 epoch ++ beBytes 4 seq

end Sys2Proof.Machine
end

