-- ==== Sys2Proof/Machine/State.lean ====
section
/-!
DEFINITION. The state of the block: every register, memory, queue, counter and mode that spec/ gives the
MQ-840, as plain data; the reasons a command can stop; and the state after reset. INVENTORY.md, "State",
lists each piece with the rule that names it. Units that come in numbers (cores, clusters, links, stacks,
sessions) are tables from their number to their state; a unit that is not listed holds its reset state.
-/
namespace Sys2Proof.Machine

/-- A table from numbers to values, keys strictly rising. An unlisted key holds the table's default. -/
abbrev Tab (α : Type) := List (Nat × α)

/-- Why a command stops the model with a fault. -/
inductive Fault where
  /-- Raised by a meaning whose command names a unit (core, slot, cluster, engine, stack, port, session
  number ...) that the device does not have. Safe: no such command can reach the device. -/
  | noSuchUnit
deriving DecidableEq, Repr

/-- Why a command is refused by the model. -/
inductive Refusal where
  /-- Raised by `exec` for a command that has no meaning yet. Safe. -/
  | notModelled (mnemonic : String)
deriving DecidableEq, Repr

/-- The device states of R30. -/
inductive DevState where
  | cold | booting | isolated | ready | running | quiesced | needsRepair | alarm
deriving DecidableEq, Repr

/-! ### What the device sends -/

/-- The headers of a frame around its datagram (R387 to R389): the 802.1Q tag as PCP and VID, addresses and ports of IP and UDP, DSCP,
ECN, DF, TTL or hop limit, and the UDP checksum. -/
structure NetHead where
  tag : Option (Nat × Nat)
  srcIp : BitVec 128
  dstIp : BitVec 128
  srcPort : Nat
  dstPort : Nat
  dscp : Nat
  ecn : Nat
  df : Bool
  hops : Nat
  sum : Nat
deriving DecidableEq, Repr

/-- A packet, frame or flit handed to a port (log 12). `wire` is the datagram of R392, R346 or R408 as it is sent, `head` what stands
around it. -/
inductive Sent where
  /-- An Isaex reply (R392). -/
  | reply (port ctx : Nat) (mac : BitVec 48) (ip : BitVec 128) (udp opcode : Nat) (seq : W32) (status : Nat)
      (params wire : List Byte) (head : NetHead)
  /-- An Isaex event packet (R403). -/
  | event (port ctx : Nat) (mac : BitVec 48) (ip : BitVec 128) (udp : Nat) (count : Nat) (record wire : List Byte) (head : NetHead)
  /-- An ARP reply or a neighbour advertisement (R387). -/
  | arpReply (port : Nat) (mac : BitVec 48) (ip : W32) (tag : Option (Nat × Nat))
  | neighbourAdvertisement (port : Nat) (mac : BitVec 48) (ip target : BitVec 128) (tag : Option (Nat × Nat)) (hops : Nat)
  /-- PFC pause or release (true: pause) of a class (R390). -/
  | pfc (port cls : Nat) (pause : Bool)
  /-- A Fuelle packet towards a partner (R346). -/
  | fuelle (pkt : FPkt) (dstIp : BitVec 128) (dstPort : Nat) (mac : BitVec 48) (wire : List Byte) (head : NetHead)
  /-- An ingest READ (R408). -/
  | read (port : Nat) (dstIp : BitVec 128) (dstPort lport : Nat) (ctx : Nat) (reqid : W32) (cookie object offset : W64)
      (length : Nat) (mac : BitVec 48) (wire : List Byte) (head : NetHead)
  /-- A flit on a link (R285). -/
  | flit (port : Nat) (f : Flit)
deriving DecidableEq, Repr

/-! ### Device state, sessions and events -/

/-- Fields of the GLB_ block (R29, R58, R62, R244, R259) that are not derived from other state. -/
structure Glb where
  state : DevState
  /-- PRIOR of R29; none reads as 0. -/
  prior : Option DevState
  /-- FN_RESET of R29, bit n for function n. -/
  fnReset : BitVec 7
  imageConfirmed : Bool
  /-- `GLB_RSEED` (R58). -/
  rseed : Nat
  lsExp : Nat
  lsOvf : Bool
  lsClean : Nat
  lsInterval : Nat
  lsSkips : Nat
  lsFloorHits : Nat
  markInterval : Nat
  /-- Committed steps since the mark of R244 was last written for the interval. -/
  sinceMark : Nat
  planVariant : Nat
  evalEn : Bool
  evalSlots : Nat
  reruns : Nat
deriving DecidableEq, Repr

/-- The states of an Isaex session (R397, R398). -/
inductive SessState where
  | free | opening | isOpen
deriving DecidableEq, Repr

/-- A record of the event ring (R403). -/
structure EventRec where
  index : Nat
  code : Nat
  step : Nat
  tick : Nat
  detail : List Byte
deriving DecidableEq, Repr

/-- A packet of the device on an Isaex session before it is sealed: the reply to a command with status and parameters, or an event. -/
inductive IsxOut where
  | reply (e : Env) (status : Nat) (params : List Byte)
  | event (r : EventRec)
deriving DecidableEq, Repr

/-- A root key with its KEY_ID (R364). -/
structure RootKey where
  id : Nat
  key : List Byte
deriving DecidableEq, Repr

/-- An Isaex session (R394 to R398). -/
structure Sess where
  state : SessState
  hostMac : BitVec 48
  hostIp : BitVec 128
  hostPort : Nat
  /-- Address of the device's port that the host used: endpoint B of R370. -/
  devIp : BitVec 128
  saltA : W64
  saltB : W64
  /-- Highest host count accepted; none before SESS_CONFIRM. -/
  hi : Option Nat
  /-- Counts accepted from 4,095 below the highest, bit n for the count n below it. -/
  seen : Nat
  /-- Epochs whose host-to-device and device-to-host keys are held in the key cache (R376). -/
  epochs : List Nat
  txEpochs : List Nat
  /-- Replies and events that wait for their key (R375, R383), oldest first. -/
  out : List IsxOut
  /-- The device's own event count (R394). -/
  evCount : Nat
  mask : W32
  lastTick : Nat
  /-- The SESS_OPEN packet whose reply waits for the keys, and the tick of that reply (R397). -/
  opening : Option Env
  repliedAt : Nat
  /-- The owner root key that it is keyed from (R366). -/
  root : Option RootKey
deriving DecidableEq, Repr

/-- A request to a key-derivation unit, for one key (R380): a key of an Isaex session at an epoch (`toHost`: of the direction to the
host), of a Fuelle direction at an epoch, or an offer key for a salt. -/
inductive KdfReq where
  | isaex (ctx epoch : Nat) (toHost : Bool)
  | fuelleRx (ctx epoch : Nat)
  | fuelleTx (ctx epoch : Nat)
  | offerRx (ctx : Nat) (salt : W64)
  | offerTx (ctx : Nat) (salt : W64)
deriving DecidableEq, Repr

/-- Isaex state that belongs to no session (R387 to R411). -/
structure Isx where
  /-- The UDP port in use since the last full reset (R411). -/
  port : Nat
  idleLimit : Nat
  dropCtx : Nat
  dropSeq : Nat
  dropTag : Nat
  dropRate : Nat
  /-- The event ring, newest last, and the index of the next event (R403). -/
  ring : List EventRec
  nextEvent : Nat
  /-- Events from this index on are still to be sent: they were raised while MGMT was in reset (R403). -/
  unsent : Nat
  /-- Tick of the last report (event 14) of each discard counter (R356, R391). -/
  reports : Tab Nat
  /-- Sessionless packets answered in the current second of each port, and when that second began (R396). -/
  rate : Tab (Nat × Nat)
  /-- Packets waiting while CIPHER is in reset or keys are derived again (R37, R383), oldest first. -/
  held : List Instr
  /-- Classes whose senders have been paused, 4 × port + class (R390). -/
  pausing : List Nat
  /-- Replies of QUIESCE, and of a RESUME held, that wait for parking to end (R404, R405). -/
  parking : Bool
  quiesceWait : List Env
  resumeWait : List Env
deriving DecidableEq, Repr

/-- A reply that waits for the persistent write with the given ticket (R443). For a REG_WRITE, `words` gives each persistent write that it
asked for, with the number of words before it (R400). -/
structure StoreReply where
  ticket : Nat
  env : Env
  status : Nat
  params : List Byte
  words : List (Nat × Nat)
deriving DecidableEq, Repr

/-- Long commands in progress (R399, R400) with the packets that wait for their replies. -/
structure Long where
  commit : Option Env
  fnReset : List (Nat × Option Env)
  erase : Option (Nat × Env)
  provision : Option (Env × List Byte)
  quote : Option (Env × List Byte)
  refill : Option (Nat × Env × BitVec 128)
  store : List StoreReply
deriving DecidableEq, Repr

/-- One Ethernet port (R387 to R390, R410). `ipv4`, `ipv6` and `vlan` are the values in use since the last full
reset; the stored ones are records of the persistent store. -/
structure Eth where
  linkUp : Bool
  fecLock : Bool
  ipv4 : W32
  ipv6 : BitVec 128
  vlan : W32
  dscp : W32
  pfc : W32
  /-- Next-hop address in effect and HI word written since (R412). -/
  nextHop : BitVec 48
  dropMac : Nat
  dropVlan : Nat
  dropIp : Nat
  dropProto : Nat
  dropPort : Nat
  dropQueue : Nat
  ingStranger : Nat
  ingCrc : Nat
  framesRx : Nat
  framesTx : Nat
  /-- Tick up to which received PFC frames pause the egress of a class, and the frames that wait, oldest first (R389, R390). -/
  paused : Tab Nat
  waits : List Sent
  /-- Queue C2: ingest packets that wait to be landed (R389). -/
  c2 : List IPkt
  /-- Queue C3: Fuelle packets that wait to be opened (R379, R389). -/
  c3 : List FPkt
deriving DecidableEq, Repr

/-! ### Keys (R362 to R386) -/

/-- The keys held (R362). The identity and KEM pairs are functions of the fused secret; what the state holds is
whether their private halves are in the key cache. -/
structure Keys where
  owner : Option RootKey
  cur : Option RootKey
  old : Option RootKey
  identity : Bool
  kem : Bool
  minorAlarms : Nat
  lastAlarm : Nat
  /-- Tick of the last major alarm, and of the last minor one (R385). -/
  majorAt : Option Nat
  minorAt : Option Nat
deriving DecidableEq, Repr

/-- A derived key of a session in the cache: USE, context, direction (`mine`: the device seals under it), epoch, and for an offer key
its salt. -/
structure KeyName where
  use : Nat
  ctx : Nat
  mine : Bool
  epoch : Nat
  salt : W64
deriving DecidableEq, Repr

/-- Usage counts of a derived key (R374): invocations, bytes of plaintext and additional data, and whether a limit has been met. -/
structure KeyUse where
  name : KeyName
  calls : Nat
  bytes : Nat
  spent : Bool
deriving DecidableEq, Repr

/-- The cipher engine of one I/O die (R378 to R381, R386). -/
structure Cip where
  /-- Bit n: physical core n serves. -/
  cores : BitVec 5
  shadowUsed : Bool
  /-- Queue of the key-derivation unit, in service order, and the requests that found it full, oldest first. -/
  kdf : List KdfReq
  kdfOut : List KdfReq
  uses : List KeyUse
  derived : Nat
  tagFail : Nat
  length : Nat
  pauses : Nat
  rekeys : Nat
  /-- Tick of each core's last failed known-answer test (R434). -/
  katFail : Tab Nat
deriving DecidableEq, Repr

/-! ### Persistent store and firmware (R442 to R466) -/

/-- A physical record of the store (R442). -/
structure PstRec where
  index : Nat
  value : Nat
  crc : Nat
  seq : Nat
deriving DecidableEq, Repr

/-- What a persistent write does when it completes, besides giving the new value. -/
inductive PstHook where
  | none
  /-- The write of a swap's map record: the swap may be made from now on (R413). -/
  | swap (res : Nat)
  /-- The end of a die copy: event 8 (R221). -/
  | copyEnd (res : Nat)
  /-- The confirm record (R460). -/
  | confirm
  /-- `GLB_STATE.EXCH_LOCKED` (R384). -/
  | exchLocked
  /-- The last record of a sealed owner root key (R366, R450). -/
  | owner
  /-- The LO word of the next hop of a port (R412). -/
  | nextHop (port : Nat)
deriving DecidableEq, Repr

/-- A write of the persistent store (R443, R444). -/
structure PstWrite where
  index : Nat
  value : Nat
  /-- The device's own write, ahead of host writes. -/
  own : Bool
  ticket : Nat
  hook : PstHook
deriving DecidableEq, Repr

/-- The persistent store (R442 to R449, R465). -/
structure Pst where
  /-- Physical records, key 4 × index + 2 × die + bank; a record not listed is the shipped one (log 6). -/
  phys : Tab PstRec
  /-- Value and SEQ in service, by index; an index not listed holds its shipped value at SEQ 0. -/
  table : Tab (Nat × Nat)
  inFlight : Option PstWrite
  /-- Failed checks so far of the write in flight, by die. -/
  retry0 : Bool
  retry1 : Bool
  queue : List PstWrite
  /-- The device's own writes that wait outside the queue. -/
  waiting : List PstWrite
  nextTicket : Nat
  fails0 : Nat
  fails1 : Nat
  lost0 : Bool
  lost1 : Bool
  wearAddr : Nat
  writes : Nat
  torn : Nat
  lostIdx : Nat
  wornRefused : Nat
deriving DecidableEq, Repr

/-- A codec generation: its number, its FEATURES bit and its tables (R320). -/
structure CodecGen where
  gen : Nat
  fbit : Nat
  /-- Code lengths of the thirteen planes of R318: kind 0 to 7, each plane in order (R317, R320). -/
  lengths : List (List Nat)
deriving DecidableEq, Repr

/-- The running image and the firmware flash (R451 to R466). -/
structure Fw where
  /-- Flash bytes, key area × 2^32 + offset; an unlisted byte reads as its area's `base` says. -/
  flash : List Host.Cell
  /-- What the unlisted bytes of an area are: 0 as shipped, 1 erased, n + 2 unspecified with ticket n (log 8). -/
  base : Tab Nat
  /-- Area that runs: 0, 1, or 2 for recovery. -/
  active : Nat
  recovery : Bool
  trial : Bool
  /-- No image runs: the recovery image itself failed (R458). -/
  dead : Bool
  manifestDigest : List Byte
  major : Nat
  minor : Nat
  patch : Nat
  svn : Nat
  features : Nat
  gens : List CodecGen
  /-- Tick at the release of reset; the window of R460 counts from it. -/
  windowStart : Nat
  windowDone : Bool
  /-- The internal test step has run clean, and the tries made (R461). -/
  testClean : Bool
  testTries : Nat
deriving DecidableEq, Repr

/-! ### Clocks, rails, heat and reset (R468 to R487) -/

/-- The CLK_, PWR_ and RST_ state. -/
structure Pwr where
  tick : Nat
  refOk : Bool
  /-- REFCLK is present; the ticks count only while it is (R471). -/
  refPresent : Bool
  /-- PLLs out of lock. -/
  unlocked : List (PllDomain × Nat)
  low : BitVec 9
  dip : Bool
  dipStart : Nat
  recovered : Nat
  temps : Tab Int
  stretch : BitVec 10
  holdBrick : BitVec 10
  throttleStk : BitVec 20
  holdStk : BitVec 20
  throttleIod : BitVec 2
  holdIod : BitVec 2
  /-- The full reset is held (R482). -/
  resetHeld : Bool
  /-- The tick before which a held reset is not released: its 1 µs, and 10 ms from the recovery of every rail (R482). -/
  holdUntil : Nat
  /-- The tiers were lost and nothing has been written over the record slot since: bit 0 slot A, bit 1 slot B (R483). -/
  lostSlots : BitVec 2
  rstCode : Nat
  rstRail : Nat
  rstFull : Nat
deriving DecidableEq, Repr

/-! ### Spares, buddy and replicas (R413 to R441) -/

/-- A replicated shard of BUDDY_SET (R438). -/
structure ReplicaEntry where
  shard : Nat
  n : Nat
  routes : List Nat
deriving DecidableEq, Repr

/-- A swap that has fallen due: its resource word, whether its map record has been written, whether the shadow
core's built-in test has passed (R413, R415). -/
structure Swap where
  res : Nat
  written : Bool
  tested : Bool
deriving DecidableEq, Repr

/-- The mode of `SPR_REFLECT.STATE` (R441). -/
inductive ReflectMode where
  | none | opening | full | difference | unsure
deriving DecidableEq, Repr

/-- The digests of a replica check (R432): shard, position index of the sender, flag, digest. -/
structure PeerDigest where
  step : Nat
  shard : Nat
  pos : Nat
  flag : Nat
  digest : List Byte
deriving DecidableEq, Repr

/-- Spares, lasting faults, buddy and reflection state (R217, R413 to R441). -/
structure Spr where
  /-- Count and window start of each resource, by resource word (R217). -/
  counts : Tab (Nat × Nat)
  /-- Resource words marked lasting, in the order in which they became so. -/
  lasting : List Nat
  swaps : List Swap
  repairCause : Nat
  mgmtExpiries : Nat
  mgmtActive : Bool
  /-- Lane groups whose retrain has failed three times, until the reset of FABRIC that it causes has ended (R416). -/
  retrain : List Nat
  buddy : BitVec 128
  heldFor : BitVec 128
  replicas : List ReplicaEntry
  /-- The settings in effect since the last plan commit (R424). -/
  buddyUse : BitVec 128
  heldUse : BitVec 128
  replicasUse : List ReplicaEntry
  reflect : ReflectMode
  /-- The codec generation of the session and the holder's tags (R427). -/
  reflectGen : Nat
  /-- As holder: shards with an erased block, whose acknowledgement is withheld: stack, shard, step (R328). -/
  erased : List (Nat × Nat × Nat)
  /-- As holder: the blocks received of shards that are not whole yet (stack, shard, image offset), and the shards received whole, of the
  reflection in progress (R428). -/
  received : List (Nat × Nat × Nat)
  whole : List (Nat × Nat)
  reflected : Nat
  held : Nat
  /-- The offer of R427 is to be sent: a commit or REPAIR_DONE has renewed the session. -/
  renew : Bool
  /-- A shard of this step has differing digests (R432). -/
  differing : Bool
  /-- Peers' digests of the current step and their undecided or pending copies (R432, R433). -/
  digests : List PeerDigest
  copiesDue : List Nat
  settled : List Nat
  mismatch : Nat
  copies : Nat
  undecided : Nat
  /-- Fetches of R430 outstanding: stack, tensor, first group. -/
  fetches : List (Nat × Nat × Nat)
  /-- REFLECT must complete before NEEDS_REPAIR is entered (R419): the cause. -/
  repairAfterReflect : Option Nat
deriving DecidableEq, Repr

/-! ### The committed plan (R248 to R275, R296, R340, R406) -/

/-- A tensor descriptor (R228). -/
structure TensorDesc where
  rows : Nat
  /-- Dense-tier offset of the state region in bytes. -/
  state : Nat
  rule : Nat
  outer : Nat
  hpset : Nat
  gfmt : Nat
  wfmt : Nat
  dfmt : Nat
  shard : Nat
  grad : Nat
  gfact : W32
  work : Nat
  wscale : Nat
  delta : Nat
  localAddr : Nat
deriving DecidableEq, Repr

/-- An entry of the region table (R256). -/
structure Region where
  base : Nat
  length : Nat
  kind : Nat
deriving DecidableEq, Repr

/-- An entry of the wiring table (R296). -/
structure WireEntry where
  use : Nat
  nport : Nat
  nserial : BitVec 128
deriving DecidableEq, Repr

/-- A core entry of a phase block (R261). -/
structure CoreEntry where
  pc : Nat
  active : Bool
  endCause : Nat
deriving DecidableEq, Repr

/-- A phase block (R261): core entries and epilogue images, in core_id order. -/
structure PhaseBlock where
  cores : List CoreEntry
  epilogues : List (List Byte)
deriving DecidableEq, Repr

/-- An entry of a routing table (R265). -/
structure RouteEntry where
  egress : Nat
  isLocal : Bool
  valid : Bool
  next : Nat
deriving DecidableEq, Repr

/-- An entry of the INGEST section (R406). -/
structure StreamEntry where
  context : Nat
  lport : Nat
  sport : Nat
  kind : Nat
  saddr : BitVec 128
  object : W64
  rbytes : Nat
  per : Nat
  ring : Nat
  rslots : Nat
  noteCore : Nat
  noteTok : Nat
  orecs : Nat
  cookie : W64
deriving DecidableEq, Repr

/-- A COPY section (R251): plan-space offset, length, destination. -/
structure CopySection where
  offset : Nat
  length : Nat
  dest : Nat
deriving DecidableEq, Repr

/-- A partner entry of the Fuelle schedule (R340). -/
structure FulPartner where
  iod : Nat
  ubytes : Nat
  txBase : Nat
  txStride : Nat
  rxBase : Nat
  rxStride : Nat
deriving DecidableEq, Repr

/-- A tensor entry of the Fuelle schedule (R340). -/
structure FulTensor where
  stack : Nat
  formIod : Nat
  tensor : Nat
  out : Nat
  outStride : Nat
  joinOff : Nat
deriving DecidableEq, Repr

/-- A piece entry of the Fuelle schedule (R340). -/
structure FulPiece where
  partner : Nat
  tentry : Nat
  first : Nat
  rows : Nat
deriving DecidableEq, Repr

/-- The FUELLE section (R340). -/
structure FulSched where
  g : Nat
  s : Nat
  decay : Nat
  odepth : Nat
  rdepth : Nat
  selfW : W32
  schedId : W32
  rxStage : Nat
  joinBase : Nat
  tensors : List FulTensor
  partners : List FulPartner
  pieces : List FulPiece
deriving DecidableEq, Repr

/-- A plan as its image gives it (R249 to R252). -/
structure Plan where
  gen : Nat
  features : Nat
  seed : Nat
  pos : Nat × Nat × Nat
  dims : Nat × Nat × Nat
  vdef : Nat
  fbk : Bool
  e : Nat
  h : Nat
  p : Nat
  v : Nat
  m : Nat
  ring : Nat
  digest : List Byte
  copies : List CopySection
  main : List PhaseBlock
  fall : List PhaseBlock
  routes : List (List RouteEntry)
  /-- Update program of each stack. -/
  update : List (List TensorDesc)
  /-- Rows of the hyperparameter schedule, each the 56 words of sets 0 to 7. -/
  hpsched : List (List W32)
  regions : List Region
  part : Nat
  bmask : Nat
  wires : List WireEntry
  fuelle : Option FulSched
  ingEval : Option Nat
  streams : List StreamEntry
deriving DecidableEq, Repr

/-- Values that order 5 of a commit replaces and a refusal at order 6 puts back (R254). -/
structure Saved where
  lsExp : Nat
  lsOvf : Bool
  lsClean : Nat
  hp : Tab (Tab W32)
  rng : Tab (Tab (W32 × BitVec 128))
  step : Nat
  banks : Tab Bool
deriving DecidableEq, Repr

/-- The plan in use and the run (R254 to R266, R303). -/
structure Run where
  plan : Option Plan
  /-- A commit past order 5: the plan, whether it resumes, and the values kept (R254). -/
  committing : Option (Plan × Bool × Saved)
  resumed : Bool
  reason : Nat
  /-- Phase table in use: false main, true fallback. -/
  fallback : Bool
  step : Nat
  phase : Nat
  attempt : Nat
  tainted : Bool
  /-- The attempt is abandoned and waits for its rerun (R303, R243). -/
  abandoned : Bool
  /-- The rerun comes as after a reset of COMPUTE (R135, R212). -/
  asReset : Bool
  /-- Steps still to run; none: until a stop. -/
  stepsLeft : Option Nat
  /-- Step at whose end a stop takes effect (R400). -/
  stopAt : Option Nat
  /-- The run must end: once every core has reached its bundle boundary (R107), in QUIESCED when RESUME arrives (R305, R213); and
  whether the plan is then released. -/
  ending : Bool
  releaseAtResume : Bool
  /-- EXP as it stood during this step's COMPUTE (R65), and whether the step skips its update (R25). -/
  stepExp : Nat
  skip : Bool
  /-- Values at the start of the step, which a rerun and the end of a run before the commit point take again (R66, R185,
  R243). -/
  start : Option Saved
  /-- The DRAINs of the phase that has ended have been sent (R24). -/
  drainSent : Bool
  /-- QUIESCE met a phase that had ended: its switch completes (R266). -/
  switchMet : Bool
  /-- Tick from which the wait limits do not count: QUIESCED, or a used port not UP (R97, R304). -/
  waitStop : Option Nat
  /-- Own condition of the phase met: COMMIT recorded, reflection acknowledged, delta queued (R262). -/
  commitDone : Bool
  reflectDone : Bool
  exchangeDone : Bool
  /-- Last committed step and the sequence number of its record (R241). -/
  committed : Option Nat
  recordSeq : Option Nat
  /-- Words lost in the tiers whose content is to be restored (R213). -/
  lostWords : List Nat
  /-- The last evaluation slot's step, and the evaluation cursor at the start of the slot (R277). -/
  evalStep : Option Nat
  /-- The step that an erasure of plan traffic has tainted (R328). -/
  erasedStep : Option Nat
deriving DecidableEq, Repr

/-- An update unit (R225 to R247). -/
structure UpdUnit where
  /-- Committed bank: false A, true B. -/
  bank : Bool
  busy : Bool
  restoring : Bool
  /-- The shadow pipeline is in use. -/
  pipe : Bool
  committed : Nat
  nonfinite : Nat
  restores : Nat
  /-- Hyperparameter sets, key 16 × set + field, fields 0 LR to 9 APPLIED (R233). -/
  hp : Tab W32
  done : Bool
  /-- This step has written masters into bank N. -/
  wrote : Bool
  /-- Index of the last parameter group written: tensor, group (R241). -/
  lastGroup : Option (Nat × Nat)
  /-- The ratio of rule 4 for the tensor in progress, from the norms over all of it (R232, R243). -/
  phi : W32
  /-- Shard digests of this step and those of the last committed record (R239). -/
  digests : Tab (List Byte)
  lastDigests : Tab (List Byte)
deriving DecidableEq, Repr

/-- A stack's tiers, die maps, counters and scrub (R199 to R224). -/
structure Stk where
  fastDie : Option Nat
  denseDie : Option Nat
  fastCopying : Bool
  denseCopying : Bool
  /-- The copy pointer runs (order 3 of R221 has been made). -/
  fastRunning : Bool
  denseRunning : Bool
  /-- Copy pointers in units of 1 KiB of die-local address. -/
  fastPtr : Nat
  densePtr : Nat
  parDies : Nat
  parIface : Nat
  lost : Nat
  lostAddr : W32
  scrubEn : Bool
  scrubPeriod : Nat
  fastLate : Bool
  denseLate : Bool
  fastPasses : Nat
  densePasses : Nat
  /-- Next word that a scrub read takes, as offset / 4 in the order of R214. -/
  fastScrub : Nat
  denseScrub : Nat
  /-- Tick at which the pass of each tier began, and its scrub period in minutes (R215, R224). -/
  fastBegun : Nat
  denseBegun : Nat
  fastPeriod : Nat
  densePeriod : Nat
deriving DecidableEq, Repr

/-! ### Links (R281 to R312) -/

/-- The identity message of a neighbour (R292). -/
structure Ident where
  port : Nat
  dir : Nat
  idx : Nat
  serial : BitVec 128
  gen : Nat
  part : Nat
  manifest : List Byte
  proto : Nat
  codec : List Nat
  features : Nat
  planfeat : Nat
  bpos : Nat
  reset : Bool
  /-- The 128 bytes. -/
  raw : List Byte
deriving DecidableEq, Repr

/-- One link port. -/
structure Link where
  /-- STATE and REASON of R310. -/
  state : Nat
  reason : Nat
  used : Bool
  logical : Nat
  proto : Nat
  codecGen : Nat
  /-- Receive lane replaced by the shadow lane. -/
  shLane : Option Nat
  /-- Receive lanes of the neighbour that this sender has moved onto its shadow lane (R291). -/
  txLane : Option Nat
  nbr : Option Ident
  /-- This port has sent its identity in this training; RESET is still to be announced (R292). -/
  identSent : Bool
  announceReset : Bool
  /-- Restarts of training in a row (R293). -/
  restarts : Nat
  gaveUp : Bool
  /-- Optical signal has been detected; the port has reached order 5 of R293 since the release of reset (R460). -/
  signal : Bool
  reached : Bool
  txSeq : BitVec 16
  /-- Sequence number of the last flit accepted in order. -/
  rxSeq : BitVec 16
  /-- The ACK that the last flit sent carried (R286). -/
  told : BitVec 16
  /-- Flits sent and not yet acknowledged, oldest first. -/
  replay : List Flit
  /-- Flits that wait for credit or for the port to be UP. -/
  waiting : List Flit
  /-- Receiver places that this sender may still use. -/
  credit : Nat
  /-- Places freed in this receiver since the last report. -/
  freed : Nat
  /-- A NAK is to be sent, and how often the oldest flit has been resent (R289). -/
  nak : Bool
  resent : Nat
  /-- A NAK has been sent and the flit asked for has not come: later flits are discarded (R288). -/
  awaiting : Bool
  /-- Flits of a later attempt held in the receive buffer (R302). -/
  held : List Flit
  /-- DRAIN received from the neighbour and DRAIN_ACK received for ours, by phase (R24). -/
  drainIn : List Nat
  drainAck : List Nat
  /-- Tick at which a used port left UP under a committed plan (R304). -/
  downSince : Option Nat
  lostReported : Bool
  replays : Nat
  fails : Nat
  retrains : Nat
  dropRoute : Nat
  dropGenpart : Nat
  dropForeign : Nat
  dropMsgonly : Nat
deriving DecidableEq, Repr

/-- A part of a reflection's image and where a refill places it (R426, R436): image offset, length, two addresses, and whether
the bank (else the slot) of the reflected stack record selects between them. -/
structure FillSeg where
  off : Nat
  len : Nat
  base0 : Nat
  base1 : Nat
  byBank : Bool
deriving DecidableEq, Repr

/-- The refill of one stack: the image's parts, what its stack record selects, and the step that it names. -/
structure Fill where
  segs : List FillSeg
  slotB : Bool
  bankB : Bool
  step : Nat
  /-- The stack record, which names slot and bank, has come; what came before it waits: image offset and bytes. -/
  known : Bool
  early : List (Nat × List Byte)
  /-- Bytes that have come, and whether one lay past the image of the loaded plan. -/
  came : Nat
  outside : Bool
deriving DecidableEq, Repr

/-- Device-wide link state (R297, R307 to R311). -/
structure Lnk where
  downLimit : Nat
  bpos : Nat
  /-- Board-shared addressing is on. -/
  shared : Bool
  bmask : Nat
  /-- Physical port of each used logical port (R297). -/
  map : Tab Nat
  /-- Receive windows open for MSG flits: window, physical base, length (R307). -/
  windows : Tab (Nat × Nat)
  /-- Windows of a refill in progress, by stack (R436). -/
  fills : Tab Fill
deriving DecidableEq, Repr

/-! ### Cores (R71 to R160) -/

/-- An accumulator entry of one array (R111, R115): 32 FP32 values with the class of the entry (0 sum, 1 min,
2 max) and EMPTY. -/
structure AccEntry where
  vals : List W32
  cls : Nat
  empty : Bool
  /-- Cycle from which a DRAIN of the entry reads it (R102), and the bundle that last combined into it. -/
  ready : Nat
  src : Nat
deriving DecidableEq, Repr

/-- A weight tile (R111): the parts of 512 bytes that loaded it, the cycle from which an op may use it (R80), and the
bundle that loaded its last part. -/
structure Tile where
  /-- Which of the two tiles of the array this is. -/
  idx : Nat
  parts : Tab (List Byte)
  /-- Columns whose weights a column swap left unspecified: part, column, ticket of the free value (R134). -/
  lost : List (Nat × Nat × Nat)
  ready : Nat
  src : Nat
deriving DecidableEq, Repr

/-- One matrix array (R110 to R123). -/
structure Arr where
  active : Tile
  standby : Tile
  /-- Row-hold operands: for each row the activation elements held (R121). -/
  hold : Tab W32
  acc : Tab AccEntry
  /-- Cycle from which the next accumulating op may enter (R102), and the bundle of the last one. -/
  nextOp : Nat
  opSrc : Nat
  shadow0 : Option Nat
  shadow1 : Option Nat
  parEvents : Nat
deriving DecidableEq, Repr

/-- A result on its way to its destination (R102). Bytes of V registers carry the bits that are written. -/
inductive Payload where
  | vreg (addr : Nat) (bytes : List (Byte × Byte))
  | sreg (n : Nat) (v mask : W64)
  | xreg (n : Nat) (v : W32)
  | preg (n : Nat) (v mask : BitVec 512)
  | feed (bytes : List Byte)
  | cache (addr : Nat) (bytes : List Byte)
  | tile (v : Nat)
  | kq (v : Nat)
deriving DecidableEq, Repr

/-- A result in flight: the bundle that issued it, its landing cycle, and the register-file writes that it counts for
(R102, R142). -/
structure InFlight where
  bundle : Nat
  /-- The cycle of issue, and that of landing. -/
  sent : Nat
  land : Nat
  weight : Nat
  payload : Payload
deriving DecidableEq, Repr

/-- A write to the operand cache: what fetches of the next cycles and other ports in the same cycle may still read in its
place (R99, R101), and what R103 names where its bundle breaks a timing rule. Bundle 0 stands for the engine port. -/
structure StoreRec where
  bundle : Nat
  land : Nat
  addr : Nat
  old : List Byte
  /-- The tick, and whether the core had a bundle in progress, so that the write shares a cycle with it (log 74). -/
  tick : Nat
  mid : Bool
deriving DecidableEq, Repr

/-- The bundle in progress: its 1,024 bits, the repeat, the slots done in this repeat, and the predicates read in
its first cycle (R89). -/
structure Bun where
  raw : BitVec 1024
  rep : Nat
  slotsDone : List Nat
  /-- Bit 0 of PRED of each slot, bit n for slot n, and the element masks of ve0 and ve1. -/
  preds : Nat
  mask0 : BitVec 512
  mask1 : BitVec 512
  /-- The bundle has broken a timing rule: what it names as destinations holds free values (R103). -/
  spoiled : Bool
  /-- Where the control slot has sent the stream: a loop entered or skipped, a branch taken, the end (R87, R90). -/
  loop : Option (Nat × Nat)
  branch : Option Nat
  final : Bool
  /-- FENCE has issued (R87). -/
  fence : Bool
  /-- Row status and maxima that the DRAINs of the bundle have written: array, byte address, bytes (R81). -/
  drained : List (Nat × Nat × List Byte)
  /-- Token counters to which an increment has come in the cycle of issue, once for each (R96). -/
  arrived : List Nat
  /-- Chain records that have arrived in the present cycle, by slot: they are written at its end (R124). -/
  records : List (Nat × List Byte)
deriving DecidableEq, Repr

/-- A loop-stack entry (R90): first and last bundle of the body, count left. -/
structure LoopEntry where
  first : Nat
  last : Nat
  count : Nat
deriving DecidableEq, Repr

/-- Registers of a core (R71). A register that is not listed holds its value at reset, or, once a reset has made
the registers unspecified (`gen` above 0), a free value (R72). -/
structure RegFile where
  v : List Host.Cell
  s : Tab W64
  x : Tab W32
  p : Tab (BitVec 512)
  t : Tab Nat
  gen : Nat
deriving DecidableEq, Repr

/-- A core (R71 to R109). -/
structure Core where
  rf : RegFile
  pc : Nat
  tile : Nat
  kq : Nat
  loops : List LoopEntry
  feed : List Byte
  /-- Bytes that the last feed wrote (R85). -/
  feedLen : Nat
  arrays : Tab Arr
  /-- Chain buffer (R124): records by slot 64 × array + entry, with 0 where no op has used the record, 1 where one
  has, 2 where it replaced an unused one (R125). -/
  chain : Tab (Nat × List Byte)
  /-- Epilogue sets (R127), key 4 × set + register. -/
  epi : Tab W32
  /-- The phase block lists the core as active; it has executed END (R261, R262). -/
  active : Bool
  ended : Bool
  endCause : Nat
  /-- A bundle waits under R92, since the tick given; ticks in QUIESCED are taken off by moving it. -/
  waiting : Option Nat
  /-- The wait of the bundle at PC, or of the bundle in progress, has been made and consumed. -/
  waited : Bool
  cyc : Nat
  /-- Number of bundles issued, which names the bundle of a result. -/
  issued : Nat
  bun : Option Bun
  /-- Branches taken: bundles left before the jump, target (R90). -/
  branches : List (Nat × Nat)
  flight : List InFlight
  /-- Bundles and cache stores of the last cycles: number, last cycle, bits (R101, R103). -/
  past : List (Nat × Nat × BitVec 1024)
  stores : List StoreRec
  faultCode : Nat
  faultPc : Nat
  faultTok : Nat
  waitLimit : Nat
  veIssue0 : Nat
  veIssue1 : Nat
  veNan : Nat
  /-- Cycles counted under causes 0 to 8 and busy cycles, and steps (R279). -/
  idle : Tab Nat
  busy : Nat
  steps : Nat
deriving DecidableEq, Repr

/-! ### Clusters (R161 to R198) -/

/-- Bytes [lo, hi) of this device that a board-shared read asked back (R309): the reply writes them, or the engine that
asked takes it as an operand. -/
structure Owed where
  lo : Nat
  hi : Nat
  keep : Bool
deriving DecidableEq, Repr

/-- An operand that an engine has asked of another board position: the position, the address there, the return address that the read
gave, and the bytes, as far as they have come (R309). -/
structure Operand where
  pos : Nat
  pa : Nat
  ret : Nat
  bytes : List Byte
deriving DecidableEq, Repr

/-- What a segment of a descriptor does (R164, R194). -/
inductive Act where
  /-- Writes bytes, at this device or at another board position. -/
  | put (pos : Option Nat) (pa : Nat) (bytes : List Byte)
  /-- Asks another board position for bytes that its replies write at `ret` (R309). -/
  | ask (pos pa n ret : Nat)
  /-- Counts indices out of range (R177, R180), and pad elements (R175). -/
  | oob (n : Nat)
  | pads (n : Nat)
  /-- Sets a random-stream slot (R184, R185). -/
  | slot (n : Nat) (v : W32 × BitVec 128)
  /-- Replaces the send map or the receive map (R191). -/
  | map (sending : Bool) (entries : List W64)
  /-- Sends bytes of a shard by a route, the first or the last of the shard among them (R189). -/
  | send (route rtok dst : Nat) (bytes : List Byte) (first last : Bool)
  /-- Raises the sticky overflow flag (R51). -/
  | ovf (on : Bool)
  /-- Counts a block encoded, raw or coded, and an erasure: generation, kind, status and counter (R331, R328). -/
  | coded (raw : Bool)
  | erased (gen kind status counter : Nat)
deriving DecidableEq, Repr

/-- A cluster engine: posted lists (the cluster offset of the next descriptor of each), token counters, the
descriptor it runs or last ran. -/
structure Engine where
  lists : List Nat
  tokens : Tab Nat
  waiting : Option Nat
  cur : Nat
  /-- The descriptor in progress (0: none is), what each of its segments still to come does (none: operands are still to come), its
  operands from other board positions, and the replies that it waits for (R164, R171, R194, R309). -/
  desc : Nat
  work : Option (List (List Act))
  operands : List Operand
  owed : List Owed
  done : Nat
  /-- Bytes written: units of 4 KiB counted and the remainder (R198). -/
  units : Nat
  rest : Nat
deriving DecidableEq, Repr

/-- A cluster. -/
structure Cluster where
  engines : Tab Engine
  /-- Random-stream slots: key selector and counter (R184). -/
  rng : Tab (W32 × BitVec 128)
  sendMap : List W64
  recvMap : List W64
  faultEng : Nat
  faultDesc : Nat
  faultCode : Nat
  /-- A fault of the current step is recorded (R197). -/
  faultThisStep : Bool
  oob : Nat
  pads : Nat
  bank0 : Option Nat
  bank1 : Option Nat
  /-- Logical core that the shadow core serves (R415). -/
  shadowCore : Option Nat
deriving DecidableEq, Repr

/-! ### Fuelle and ingest (R332 to R361, R406 to R409) -/

/-- A group buffer of a receiver (R349): packets held by index. -/
structure RxGroup where
  round : Nat
  sponsor : Bool
  group : Nat
  k : Nat
  m : Nat
  lastGroup : Bool
  packets : Tab (List Byte)
deriving DecidableEq, Repr

/-- A stream as its receiver sees it (R335, R350). `data` are the coded bytes of the recovered groups. -/
structure RxStream where
  round : Nat
  sponsor : Bool
  /-- Recovered groups and their data. -/
  groups : Tab (List Byte)
  highest : Nat
  lastGroup : Option Nat
  /-- Largest K of its packets. -/
  k : Nat
  complete : Bool
  /-- Formed, discarded or abandoned: further packets are duplicates. -/
  closed : Bool
  /-- Places of the blocks whose erasure has been counted, and of those whose packets have been asked for again (R322, R328). -/
  counted : List Nat
  again : List Nat
deriving DecidableEq, Repr

/-- A round that a session sends (R334, R350, R352). -/
structure TxRound where
  round : Nat
  sponsor : Bool
  /-- Physical address and bytes of the coded stream; a sponsor stream is coded from the snapshot. -/
  base : Nat
  length : Nat
  /-- Bytes of each block; each starts at a multiple of 64 in the transmit slot (R316). -/
  blocks : List Nat
  /-- Generation of its blocks and size of its packets (R326, R348). -/
  gen : Nat
  psz : Nat
  /-- Next packet to send for the first time, counted over groups with their parity packets. -/
  next : Nat
  /-- Packets to send again: group, index. -/
  resend : List (Nat × Nat)
  /-- Groups reported as recovered from group 0, and tick of the last re-send of each group. -/
  done : Nat
  resentAt : Tab Nat
  /-- Tick of its last packet, or of the last ACK that named it since (R350). -/
  heardAt : Nat
  complete : Bool
deriving DecidableEq, Repr

/-- A Fuelle session (R342 to R358). -/
structure FulCtx where
  /-- State of R344: 0 FREE, 1 OPENING, 2 OPEN, 3 JOINING, 4 PAUSED, and the state held before PAUSED. -/
  state : Nat
  before : Nat
  peerIp : BitVec 128
  peerPort : Nat
  peerCtx : Nat
  slot : Nat
  profile : Nat
  weight : W32
  k : Nat
  m : Nat
  dscp : Nat
  ecn : Bool
  join : Bool
  psz : Nat
  /-- Settled: generation (0 raw), PSZ and profile in use (R345). -/
  gen : Nat
  pszUse : Nat
  profileUse : Nat
  root : Option RootKey
  saltOwn : W64
  saltPeer : W64
  /-- Packets sealed under the offer key of the current salt (R371). -/
  offers : Nat
  /-- The offer key of the own salt is held, an OFFER waits for it, and the peer's salt whose offer key is held (0 none). -/
  offerTx : Bool
  offerDue : Bool
  offerRx : W64
  /-- Of each salt of the peer under which an OFFER has been accepted: the highest SEQ accepted, and those accepted below it (R356, R371). -/
  offerSeen : Tab (Nat × Nat)
  /-- The derived keys have been erased, and no receiving key is back (R359, R383). -/
  erased : Bool
  txCount : Nat
  txEpochs : List Nat
  /-- Packets whose key had reached a limit; they wait for that of the next epoch (R374). -/
  due : List FPkt
  rxHi : Option Nat
  rxSeen : Nat
  rxEpochs : List Nat
  /-- Partner's FORMED. -/
  formed : Nat
  srtt : Nat
  rttvar : Nat
  rto : Nat
  rtoScale : Nat
  sampled : Bool
  above : Nat
  below : Nat
  /-- Rate in Mbit/s, ticks of the last decrease and of the last increase (R353). -/
  rate : Nat
  lastDecrease : Nat
  lastIncrease : Nat
  /-- Rate before the last decrease and its factor in percent. -/
  rateBase : Nat
  factor : Nat
  /-- Tick from which an ACK has been awaited (R376). -/
  awaiting : Option Nat
  ceRx : Nat
  ceSeen : Nat
  /-- TICK of the newest packet received and its arrival. -/
  newestTick : W32
  newestAt : Nat
  tx : List TxRound
  groups : List RxGroup
  rx : List RxStream
  sponsorAble : Bool
  /-- The joiner waits for its snapshot, to be taken in the next sending step (R357). -/
  joinAsked : Bool
  installed : Bool
deriving DecidableEq, Repr

/-- A contribution in a receive slot (R335, R336). -/
structure Contribution where
  round : Nat
  complete : Bool
deriving DecidableEq, Repr

/-- One Fuelle engine (R360). -/
structure FulDie where
  formed : Nat
  dropCtx : Nat
  dropTag : Nat
  dropSeq : Nat
  dropEpoch : Nat
  dups : Nat
  stale : Nat
  bad : Nat
  resent : Nat
  recovered : Nat
  rounds : Nat
  jumps : Nat
deriving DecidableEq, Repr

/-- Device-wide Fuelle state. -/
structure Ful where
  shareEcn : Bool
  share : Nat
  joinLimit : Nat
  /-- Receive slots, key 16 × partner slot + d. -/
  slots : Tab Contribution
  /-- Rounds sent under the current plan commit and base (R339). -/
  sent : List Nat
  /-- The closed round, its eligible set (slot key, age), and whether it is ready (R337, R338). -/
  closed : Option Nat
  eligible : List (Nat × Nat)
  ready : Bool
  /-- Round queued in this EXCHANGE. -/
  queued : Option Nat
  /-- Snapshot of R357: last formed round of the snapshot. -/
  snapshot : Option Nat
  /-- Tick of order 2 of a join in progress (R358). -/
  joinSince : Option Nat
  /-- Limit of that join in ticks. -/
  joinFor : Nat
  /-- Rows of each tensor entry that the last join left without a stream. -/
  missed : List (Nat × Nat)
  /-- Highest q installed in the join. -/
  joinBest : Option Nat
deriving DecidableEq, Repr

/-- A READ outstanding (R408): request identifier, record, attempts, bytes landed as (offset, length). -/
structure IngRead where
  reqid : W32
  record : Nat
  tries : Nat
  /-- Tick at which it was sent. -/
  sentAt : Nat
  landed : List (Nat × Nat)
deriving DecidableEq, Repr

/-- An ingest stream in service (R406 to R408). -/
structure IngStream where
  cursor : Nat
  sport : Nat
  saddr : BitVec 128
  cookie : W64
  /-- ING_ENDPOINT has given the endpoint. -/
  given : Bool
  stalled : Bool
  /-- Records landed from the cursor on, whether NOTE has been raised for them in order. -/
  landed : List Nat
  noted : Nat
  reads : List IngRead
  nextReq : Nat
deriving DecidableEq, Repr

/-- The codec's registers (R331). -/
structure Cdc where
  blocks : Nat
  raw : Nat
  eraseGen : Nat
  eraseLen : Nat
  eraseMal : Nat
  last : W32
deriving DecidableEq, Repr

/-- The state of the block. -/
structure State where
  /-- Commands that wait, first in, first out. -/
  pending : List Instr
  glb : Glb
  run : Run
  pwr : Pwr
  pst : Pst
  fw : Fw
  keys : Keys
  cip : Tab Cip
  isx : Isx
  sess : Tab Sess
  long : Long
  eth : Tab Eth
  spr : Spr
  stk : Tab Stk
  upd : Tab UpdUnit
  lnk : Lnk
  link : Tab Link
  cores : Tab Core
  clusters : Tab Cluster
  ful : Ful
  fulDie : Tab FulDie
  fctx : Tab FulCtx
  ing : Tab IngStream
  cdc : Cdc
  /-- Bytes of the physical address space of R202; an unlisted byte reads as `Ops.memDefault` says. -/
  mem : List Host.Cell
  /-- Generation of each kind of storage: 0 fast tier, 1 dense tier, 2 cluster memories, 3 operand caches,
  4 test scratch of the fast tier. It rises when the contents become unspecified or are lost (R483, R461). -/
  gens : Tab Nat
  /-- HI words latched by a read of their LO words (R280): register address of the HI word, value. -/
  latches : Tab Nat
  /-- What the device has sent, newest first (log 12). -/
  egress : List Sent
  /-- Counter of the free values taken (log 5). -/
  fresh : Nat
deriving DecidableEq, Repr

/-! ### The state after reset -/

/-- A session that is FREE. -/
def Sess.reset : Sess :=
  { state := .free, hostMac := 0, hostIp := 0, hostPort := 0, devIp := 0, saltA := 0, saltB := 0, hi := none,
    seen := 0, epochs := [], txEpochs := [], out := [], evCount := 0, mask := 0xFFFFFFFF, lastTick := 0, opening := none,
    repliedAt := 0, root := none }

/-- A port after reset (R410). `ETH_DSCP` and `ETH_PFC` hold the reset values of their fields. -/
def Eth.reset : Eth :=
  { linkUp := false, fecLock := false, ipv4 := 0, ipv6 := 0, vlan := 0, dscp := 0x0000A8AE, pfc := 0x00002356,
    nextHop := 0, dropMac := 0, dropVlan := 0, dropIp := 0, dropProto := 0, dropPort := 0, dropQueue := 0,
    ingStranger := 0, ingCrc := 0, framesRx := 0, framesTx := 0, paused := [], waits := [], c2 := [], c3 := [] }

/-- A cipher engine after reset (R386). -/
def Cip.reset : Cip :=
  { cores := 0x0F, shadowUsed := false, kdf := [], kdfOut := [], uses := [], derived := 0, tagFail := 0, length := 0, pauses := 0,
    rekeys := 0, katFail := [] }

/-- A stack after reset (R223). -/
def Stk.reset : Stk :=
  { fastDie := none, denseDie := none, fastCopying := false, denseCopying := false, fastRunning := false,
    denseRunning := false, fastPtr := 0, densePtr := 0, parDies := 0, parIface := 0, lost := 0, lostAddr := 0,
    scrubEn := true, scrubPeriod := 0x003C, fastBegun := 0, denseBegun := 0, fastPeriod := 0x003C, densePeriod := 0x003C, fastLate := false, denseLate := false, fastPasses := 0,
    densePasses := 0, fastScrub := 0, denseScrub := 0 }

/-- An update unit after reset (R233, R247). -/
def UpdUnit.reset : UpdUnit :=
  { bank := false, busy := false, restoring := false, pipe := false, committed := 0, nonfinite := 0, restores := 0,
    hp := [], done := false, wrote := false, lastGroup := none, phi := 0x3F800000, digests := [], lastDigests := [] }

/-- Port n after reset (R310). -/
def Link.reset (n : Nat) : Link :=
  { state := 0, reason := 0, used := false, logical := n, proto := 0, codecGen := 0, shLane := none, txLane := none,
    nbr := none, identSent := false, announceReset := true, restarts := 0, gaveUp := false, signal := false, reached := false, txSeq := 0, rxSeq := 0xFFFF, told := 0xFFFF,
    replay := [], waiting := [], credit := 4096, freed := 0, nak := false, resent := 0, awaiting := false, held := [], drainIn := [],
    drainAck := [], downSince := none, lostReported := false, replays := 0, fails := 0, retrains := 0, dropRoute := 0,
    dropGenpart := 0, dropForeign := 0, dropMsgonly := 0 }

/-- An array after reset (R115, R136; log 2). -/
def Arr.reset : Arr :=
  { active := { idx := 0, parts := [], lost := [], ready := 0, src := 0 }, standby := { idx := 1, parts := [], lost := [], ready := 0, src := 0 }, hold := [], acc := [],
    nextOp := 0, opSrc := 0, shadow0 := none, shadow1 := none, parEvents := 0 }

/-- A core after reset (R71, R105, R279; log 2). -/
def Core.reset : Core :=
  { rf := { v := [], s := [], x := [], p := [], t := [], gen := 0 }, pc := 0, tile := 0, kq := 0, loops := [],
    feed := List.replicate 256 0, feedLen := 256, arrays := [], chain := [], epi := [], active := false, ended := false,
    endCause := 0, waiting := none, waited := false, cyc := 0, issued := 0, bun := none,
    branches := [], flight := [], past := [], stores := [], faultCode := 0, faultPc := 0, faultTok := 0, waitLimit := 0x00989680,
    veIssue0 := 0, veIssue1 := 0, veNan := 0, idle := [], busy := 0, steps := 0 }

/-- A cluster engine with nothing posted. -/
def Engine.reset : Engine :=
  { lists := [], tokens := [], waiting := none, cur := 0, desc := 0, work := none, operands := [], owed := [], done := 0, units := 0,
    rest := 0 }

/-- An engine abandons its lists and the descriptor in progress. -/
def Engine.emptied (x : Engine) : Engine :=
  { x with lists := [], waiting := none, desc := 0, work := none, operands := [], owed := [] }

/-- A cluster after reset (R196). -/
def Cluster.reset : Cluster :=
  { engines := [], rng := [], sendMap := [], recvMap := [], faultEng := 0, faultDesc := 0, faultCode := 0,
    faultThisStep := false, oob := 0, pads := 0, bank0 := none, bank1 := none, shadowCore := none }

/-- A Fuelle context that is FREE. -/
def FulCtx.reset : FulCtx :=
  { state := 0, before := 0, peerIp := 0, peerPort := 0, peerCtx := 0, slot := 0, profile := 0, weight := 0, k := 96,
    m := 8, dscp := 0, ecn := false, join := false, psz := 8192, gen := 0, pszUse := 8192, profileUse := 0, root := none,
    saltOwn := 0, saltPeer := 0, offers := 0, offerTx := false, offerDue := false, offerRx := 0, offerSeen := [],
    erased := false, txCount := 0, txEpochs := [], due := [], rxHi := none, rxSeen := 0, rxEpochs := [],
    formed := 0, srtt := 0, rttvar := 0, rto := 0, rtoScale := 1, sampled := false, above := 0, below := 0, rate := 0,
    lastDecrease := 0, lastIncrease := 0, rateBase := 0, factor := 100, awaiting := none, ceRx := 0, ceSeen := 0, newestTick := 0, newestAt := 0, tx := [], groups := [], rx := [],
    sponsorAble := false, joinAsked := false, installed := false }

/-- A Fuelle engine after reset (R360). -/
def FulDie.reset : FulDie :=
  { formed := 0, dropCtx := 0, dropTag := 0, dropSeq := 0, dropEpoch := 0, dups := 0, stale := 0, bad := 0, resent := 0,
    recovered := 0, rounds := 0, jumps := 0 }

/-- An ingest stream that has no plan. -/
def IngStream.reset : IngStream :=
  { cursor := 0, sport := 0, saddr := 0, cookie := 0, given := false, stalled := false, landed := [], noted := 0, reads := [],
    nextReq := 0 }

/-- GLB_ after reset (R29, R58, R62, R244, R259). -/
def Glb.reset : Glb :=
  { state := .booting, prior := none, fnReset := 0, imageConfirmed := false, rseed := 0, lsExp := 0x10, lsOvf := false,
    lsClean := 0, lsInterval := 0x07D0, lsSkips := 0, lsFloorHits := 0, markInterval := 0x0400, sinceMark := 0,
    planVariant := 0, evalEn := true, evalSlots := 0, reruns := 0 }

/-- No plan and no run (R259). -/
def Run.reset : Run :=
  { plan := none, committing := none, resumed := false, reason := 0, fallback := false, step := 0, phase := 7,
    attempt := 0, tainted := false, abandoned := false, asReset := false, stepsLeft := none, stopAt := none, ending := false,
    releaseAtResume := false, stepExp := 0x10, skip := false, start := none, drainSent := false, switchMet := false, waitStop := none, commitDone := false,
    reflectDone := false, exchangeDone := false, committed := none, recordSeq := none, lostWords := [],
    evalStep := none, erasedStep := none }

/-- Clocks, rails and reset after a power-on reset of POR_N alone (R471, R485 to R487; log 1, 9). -/
def Pwr.reset : Pwr :=
  { tick := 0, refOk := true, refPresent := true, unlocked := [], low := 0, dip := false, dipStart := 0, recovered := 0,
    temps := [], stretch := 0, holdBrick := 0, throttleStk := 0, holdStk := 0, throttleIod := 0, holdIod := 0,
    resetHeld := false, holdUntil := 0, lostSlots := 0, rstCode := 1, rstRail := 0xF, rstFull := 0 }

/-- The persistent store as shipped (R442, R465; log 6). -/
def Pst.reset : Pst :=
  { phys := [], table := [], inFlight := none, retry0 := false, retry1 := false, queue := [], waiting := [],
    nextTicket := 0, fails0 := 0, fails1 := 0, lost0 := false, lost1 := false, wearAddr := 0, writes := 0, torn := 0,
    lostIdx := 0, wornRefused := 0 }

/-- The running image that the model names (log 8). -/
def Fw.reset : Fw :=
  { flash := [], base := [], active := 0, recovery := false, trial := false, dead := false, manifestDigest := List.replicate 32 0,
    major := 1, minor := 0, patch := 0, svn := 0, features := 0, gens := [], windowStart := 0, windowDone := false,
    testClean := false, testTries := 0 }

/-- Isaex after reset (R411); the port is the shipped one (47,800). -/
def Isx.reset : Isx :=
  { port := 0xBAB8, idleLimit := 0x000927C0, dropCtx := 0, dropSeq := 0, dropTag := 0, dropRate := 0, ring := [],
    nextEvent := 0, unsent := 0, reports := [], rate := [], held := [], pausing := [], parking := false, quiesceWait := [], resumeWait := [] }

/-- No long command in progress. -/
def Long.reset : Long :=
  { commit := none, fnReset := [], erase := none, provision := none, quote := none, refill := none, store := [] }

/-- Spares and reflection after reset (R441). -/
def Spr.reset : Spr :=
  { counts := [], lasting := [], swaps := [], repairCause := 0, mgmtExpiries := 0, mgmtActive := false, retrain := [], buddy := 0,
    heldFor := 0, replicas := [], buddyUse := 0, heldUse := 0, replicasUse := [], reflect := .none, reflectGen := 0,
    erased := [], received := [], whole := [],
    reflected := 0, held := 0, renew := false, differing := false, digests := [], copiesDue := [], settled := [], mismatch := 0, copies := 0,
    undecided := 0, fetches := [], repairAfterReflect := none }

/-- Device-wide Fuelle state after reset (R360). -/
def Ful.reset : Ful :=
  { shareEcn := true, share := 0x50, joinLimit := 0xB2D05E00, slots := [], sent := [], closed := none, eligible := [],
    ready := false, queued := none, snapshot := none, joinSince := none, joinFor := 0, missed := [], joinBest := none }

/-- The machine right after the release of a power-on reset (R29, R471, R487; log 1). -/
def State.reset : State :=
  { pending := [], glb := .reset, run := .reset, pwr := .reset, pst := .reset, fw := .reset,
    keys := { owner := none, cur := none, old := none, identity := true, kem := true, minorAlarms := 0, lastAlarm := 0, majorAt := none, minorAt := none },
    cip := [], isx := .reset, sess := [], long := .reset, eth := [], spr := .reset, stk := [], upd := [],
    lnk := { downLimit := 0x00989680, bpos := 0, shared := false, bmask := 0, map := [], windows := [], fills := [] },
    link := [], cores := [], clusters := [], ful := .reset, fulDie := [], fctx := [], ing := [],
    cdc := { blocks := 0, raw := 0, eraseGen := 0, eraseLen := 0, eraseMal := 0, last := 0 },
    mem := [], gens := [], latches := [], egress := [], fresh := 0 }

end Sys2Proof.Machine
end

