-- ==== Sys2Proof/WellFormed.lean ====
section
/-!
DEFINITION. Which commands can reach the device: the units that a command names exist (R14, R17, R55, R164,
R196, R281). What a host sends is never ill-formed here beyond its port: the device answers it (R393, R402).
-/
namespace Sys2Proof

/-- The number of PLLs of each domain (R468). -/
def PllDomain.count : PllDomain → Nat
  | .compute => 10
  | .mortar => 12
  | .stackLogic => 20
  | .link => 48
  | .ethernet => 2
  | .ioDie => 2

/-- The resource exists (R219, R502). -/
def Res.inRange : Res → Bool
  | .core c => decide (c < 480)
  | .bank g b => decide (g < 40 ∧ b < 34)
  | .die s _ d => decide (s < 20 ∧ d < 9)
  | .laneGroup q k => decide (q < 23 ∨ (32 ≤ q ∧ q < 52)) && decide (k < 256)
  | .pipeline s p => decide (s < 20 ∧ p < 2)
  | .cipherCore d k => decide (d < 2 ∧ k < 5)
  | .mgmtCore i => decide (i < 2)
  | .builtinTest n => decide (n < 480)
  | .column c a j => decide (c < 480 ∧ a < 4 ∧ j < 34)
  | .rfEntry c e => decide (c < 480 ∧ e < 520)
  | .linkLane n k => decide (n < 48 ∧ k < 9)
  | .portLogic n => decide (n < 48)
  | .pstDie i => decide (i < 2)
  | .pstRecord i => decide (i < 4096)

/-- Every unit that the command names exists. -/
def wellFormed : Instr → Bool
  | .quiesce e _ => decide (e.port < 2)
  | .resume e _ => decide (e.port < 2)
  | .fenceLinks e _ => decide (e.port < 2)
  | .parkingEnd => true
  | .sessOpen e _ => decide (e.port < 2)
  | .sessConfirm e _ => decide (e.port < 2)
  | .sessClose e _ => decide (e.port < 2)
  | .sessPing e _ => decide (e.port < 2)
  | .eventMask e _ => decide (e.port < 2)
  | .eventRead e _ => decide (e.port < 2)
  | .regRead e _ => decide (e.port < 2)
  | .regWrite e _ => decide (e.port < 2)
  | .planWrite e _ => decide (e.port < 2)
  | .planRead e _ => decide (e.port < 2)
  | .planCommit e _ => decide (e.port < 2)
  | .planRelease e _ => decide (e.port < 2)
  | .stepStart e _ => decide (e.port < 2)
  | .stepStop e _ => decide (e.port < 2)
  | .stepStatus e _ => decide (e.port < 2)
  | .evalRead e _ => decide (e.port < 2)
  | .evalStatus e _ => decide (e.port < 2)
  | .fnReset e _ => decide (e.port < 2)
  | .fulOpen e _ => decide (e.port < 2)
  | .fulClose e _ => decide (e.port < 2)
  | .fulStatus e _ => decide (e.port < 2)
  | .fwWrite e _ => decide (e.port < 2)
  | .fwRead e _ => decide (e.port < 2)
  | .fwErase e _ => decide (e.port < 2)
  | .fwStage e _ => decide (e.port < 2)
  | .fwUnstage e _ => decide (e.port < 2)
  | .fwStatus e _ => decide (e.port < 2)
  | .fwManifest e _ => decide (e.port < 2)
  | .idCert e _ => decide (e.port < 2)
  | .idKem e _ => decide (e.port < 2)
  | .rootProvision e _ => decide (e.port < 2)
  | .attestQuote e _ => decide (e.port < 2)
  | .sprReport e _ => decide (e.port < 2)
  | .buddySet e _ => decide (e.port < 2)
  | .refillSource e _ => decide (e.port < 2)
  | .refillTarget e _ => decide (e.port < 2)
  | .repairDone e _ => decide (e.port < 2)
  | .lnkRetrain e _ => decide (e.port < 2)
  | .lnkUnfence e _ => decide (e.port < 2)
  | .lnkIdent e _ => decide (e.port < 2)
  | .ingStatus e _ => decide (e.port < 2)
  | .ingSeek e _ => decide (e.port < 2)
  | .ingEndpoint e _ => decide (e.port < 2)
  | .strangerFrame f => decide (f.port < 2)
  | .arpRequest port _ _ _ => decide (port < 2)
  | .neighbourSolicitation port _ _ _ => decide (port < 2)
  | .pfcFrame port _ _ => decide (port < 2)
  | .sessionOpeningTimeout ctx => decide (ctx < 16384)
  | .sessionIdleTimeout ctx => decide (ctx < 16384)
  | .waitToken c => decide (c < 480)
  | .slotNop c slot => decide (c < 480 ∧ slot < 8)
  | .mWload c a => decide (c < 480 ∧ a < 4)
  | .mMac c a => decide (c < 480 ∧ a < 4)
  | .mL1 c a => decide (c < 480 ∧ a < 4)
  | .mSqd c a => decide (c < 480 ∧ a < 4)
  | .mMinplus c a => decide (c < 480 ∧ a < 4)
  | .mMaxplus c a => decide (c < 480 ∧ a < 4)
  | .mHam c a => decide (c < 480 ∧ a < 4)
  | .mCmpc c a => decide (c < 480 ∧ a < 4)
  | .mDrain c a => decide (c < 480 ∧ a < 4)
  | .mInit c a => decide (c < 480 ∧ a < 4)
  | .vAdd c ve => decide (c < 480 ∧ ve < 2)
  | .vSub c ve => decide (c < 480 ∧ ve < 2)
  | .vMul c ve => decide (c < 480 ∧ ve < 2)
  | .vFma c ve => decide (c < 480 ∧ ve < 2)
  | .vMin c ve => decide (c < 480 ∧ ve < 2)
  | .vMax c ve => decide (c < 480 ∧ ve < 2)
  | .vAbs c ve => decide (c < 480 ∧ ve < 2)
  | .vNeg c ve => decide (c < 480 ∧ ve < 2)
  | .vAdds c ve => decide (c < 480 ∧ ve < 2)
  | .vMuls c ve => decide (c < 480 ∧ ve < 2)
  | .vDiv c ve => decide (c < 480 ∧ ve < 2)
  | .vSqrt c ve => decide (c < 480 ∧ ve < 2)
  | .vRcp c ve => decide (c < 480 ∧ ve < 2)
  | .vRsqrt c ve => decide (c < 480 ∧ ve < 2)
  | .vExp c ve => decide (c < 480 ∧ ve < 2)
  | .vLog c ve => decide (c < 480 ∧ ve < 2)
  | .vTanh c ve => decide (c < 480 ∧ ve < 2)
  | .vSigmoid c ve => decide (c < 480 ∧ ve < 2)
  | .vGelu c ve => decide (c < 480 ∧ ve < 2)
  | .vSilu c ve => decide (c < 480 ∧ ve < 2)
  | .vRelu c ve => decide (c < 480 ∧ ve < 2)
  | .vAnd c ve => decide (c < 480 ∧ ve < 2)
  | .vOr c ve => decide (c < 480 ∧ ve < 2)
  | .vXor c ve => decide (c < 480 ∧ ve < 2)
  | .vShl c ve => decide (c < 480 ∧ ve < 2)
  | .vShr c ve => decide (c < 480 ∧ ve < 2)
  | .vSra c ve => decide (c < 480 ∧ ve < 2)
  | .vPopc c ve => decide (c < 480 ∧ ve < 2)
  | .vCmplt c ve => decide (c < 480 ∧ ve < 2)
  | .vCmple c ve => decide (c < 480 ∧ ve < 2)
  | .vCmpeq c ve => decide (c < 480 ∧ ve < 2)
  | .vCmpne c ve => decide (c < 480 ∧ ve < 2)
  | .vSel c ve => decide (c < 480 ∧ ve < 2)
  | .vPand c ve => decide (c < 480 ∧ ve < 2)
  | .vPor c ve => decide (c < 480 ∧ ve < 2)
  | .vPxor c ve => decide (c < 480 ∧ ve < 2)
  | .vPnot c ve => decide (c < 480 ∧ ve < 2)
  | .vIsnan c ve => decide (c < 480 ∧ ve < 2)
  | .vPfirst c ve => decide (c < 480 ∧ ve < 2)
  | .vPtail c ve => decide (c < 480 ∧ ve < 2)
  | .vCvt c ve => decide (c < 480 ∧ ve < 2)
  | .vQcvt c ve => decide (c < 480 ∧ ve < 2)
  | .vAmax c ve => decide (c < 480 ∧ ve < 2)
  | .vRsum c ve => decide (c < 480 ∧ ve < 2)
  | .vRsumsq c ve => decide (c < 480 ∧ ve < 2)
  | .vRprod c ve => decide (c < 480 ∧ ve < 2)
  | .vRmax c ve => decide (c < 480 ∧ ve < 2)
  | .vRmin c ve => decide (c < 480 ∧ ve < 2)
  | .vRargmax c ve => decide (c < 480 ∧ ve < 2)
  | .vRargmin c ve => decide (c < 480 ∧ ve < 2)
  | .vScansum c ve => decide (c < 480 ∧ ve < 2)
  | .vScansumx c ve => decide (c < 480 ∧ ve < 2)
  | .vScanmax c ve => decide (c < 480 ∧ ve < 2)
  | .vScanmin c ve => decide (c < 480 ∧ ve < 2)
  | .vSoftmax c ve => decide (c < 480 ∧ ve < 2)
  | .vOsstep c ve => decide (c < 480 ∧ ve < 2)
  | .vOsmerge c ve => decide (c < 480 ∧ ve < 2)
  | .vOsnorm c ve => decide (c < 480 ∧ ve < 2)
  | .vMov c ve => decide (c < 480 ∧ ve < 2)
  | .vBcast c ve => decide (c < 480 ∧ ve < 2)
  | .vMovsv c ve => decide (c < 480 ∧ ve < 2)
  | .vMovvs c ve => decide (c < 480 ∧ ve < 2)
  | .vRot c ve => decide (c < 480 ∧ ve < 2)
  | .vPerm c ve => decide (c < 480 ∧ ve < 2)
  | .vIota c ve => decide (c < 480 ∧ ve < 2)
  | .vCompress c ve => decide (c < 480 ∧ ve < 2)
  | .ldLdv c => decide (c < 480)
  | .ldStv c => decide (c < 480)
  | .ldLds c => decide (c < 480)
  | .ldSts c => decide (c < 480)
  | .ldLdp c => decide (c < 480)
  | .ldStp c => decide (c < 480)
  | .ldFeed c => decide (c < 480)
  | .ldFeedv c => decide (c < 480)
  | .ctlEnd c => decide (c < 480)
  | .ctlLoop c => decide (c < 480)
  | .ctlBr c => decide (c < 480)
  | .ctlSli c => decide (c < 480)
  | .ctlSlih c => decide (c < 480)
  | .ctlSadd c => decide (c < 480)
  | .ctlSsub c => decide (c < 480)
  | .ctlSand c => decide (c < 480)
  | .ctlSor c => decide (c < 480)
  | .ctlSxor c => decide (c < 480)
  | .ctlSshl c => decide (c < 480)
  | .ctlSshr c => decide (c < 480)
  | .ctlSsra c => decide (c < 480)
  | .ctlSmul c => decide (c < 480)
  | .ctlSaddi c => decide (c < 480)
  | .ctlCmpeq c => decide (c < 480)
  | .ctlCmplt c => decide (c < 480)
  | .ctlCmpltu c => decide (c < 480)
  | .ctlXset c => decide (c < 480)
  | .ctlXaddi c => decide (c < 480)
  | .ctlXget c => decide (c < 480)
  | .ctlSettile c => decide (c < 480)
  | .ctlSetkq c => decide (c < 480)
  | .ctlSignal c => decide (c < 480)
  | .ctlTokrd c => decide (c < 480)
  | .ctlTokset c => decide (c < 480)
  | .ctlKick c => decide (c < 480)
  | .ctlFence c => decide (c < 480)
  | .ctlTick c => decide (c < 480)
  | .tokenArrival c tok => decide (c < 480 ∧ tok < 64)
  | .waitTimeout c => decide (c < 480)
  | .chainRecord g _ => decide (g < 40)
  | .engineTokenArrival g eng tok => decide (g < 40 ∧ eng < 10 ∧ tok < 8)
  | .engineWaitTimeout g eng => decide (g < 40 ∧ eng < 10)
  | .dmaCopy g eng => decide (g < 40 ∧ eng < 2)
  | .dmaSkew g eng => decide (g < 40 ∧ eng < 2)
  | .dmaFill g eng => decide (g < 40 ∧ eng < 2)
  | .engGather g => decide (g < 40)
  | .engScatter g => decide (g < 40)
  | .engScatterAdd g => decide (g < 40)
  | .engTranspose g => decide (g < 40)
  | .engLookup g => decide (g < 40)
  | .engSort g => decide (g < 40)
  | .engTopk g => decide (g < 40)
  | .engSetslot g => decide (g < 40)
  | .engGen g => decide (g < 40)
  | .engEncode g => decide (g < 40)
  | .engDecode g => decide (g < 40)
  | .engSend g => decide (g < 40)
  | .engRecvSum g => decide (g < 40)
  | .engRecvMax g => decide (g < 40)
  | .engRecvMin g => decide (g < 40)
  | .engRecvCopy g => decide (g < 40)
  | .engMapSend g => decide (g < 40)
  | .engMapRecv g => decide (g < 40)
  | .phaseStart => true
  | .updateDone stack => decide (stack < 20)
  | .digestTransfer _ _ _ _ _ => true
  | .shardCopy stack _ _ => decide (stack < 20)
  | .reflectOffer o => decide (o.port < 48)
  | .reflectionData d => decide (d.stack < 20)
  | .reflectAck a => a.missing.all fun x => decide (x.1 < 20)
  | .fetchRequest port stack _ _ _ => decide (port < 48 ∧ stack < 20)
  | .fetchData stack _ _ _ => decide (stack < 20)
  | .stepRerun => true
  | .parityMismatch m => m.res.inRange && (m.pa.all (· < 2 ^ 56)) && decide (m.failures ≤ 3 ∧ m.eng < 10 ∧ m.word < 480)
  | .scrubRead stack _ _ => decide (stack < 20)
  | .dieCopyEnd stack _ => decide (stack < 20)
  | .shadowTestDone g _ => decide (g < 40)
  | .mgmtWatchdogExpiry => true
  | .fuelleWatchdogExpiry => true
  | .fnResetEnd fn => decide (fn < 7)
  | .pstWriteDone _ _ => true
  | .resetRelease bpos _ => decide (bpos < 4)
  | .bootComplete => true
  | .testStepDone _ => true
  | .confirmWindowExpiry => true
  | .porN _ _ => true
  | .sysrstN => true
  | .railReset rail => decide (rail < 9)
  | .dipEntry _ => true
  | .dipRecovery => true
  | .dipTimeout rail => decide (rail < 9)
  | .refclkLoss _ => true
  | .refclkAbsentTimeout => true
  | .pllLockLoss d n => decide (n < d.count)
  | .pllFail d n => decide (n < d.count)
  | .thermalLevel d _ => decide (d < 32)
  | .minorAlarm code => decide (1 ≤ code ∧ code ≤ 3)
  | .majorAlarm => true
  | .keyRegenDone => true
  | .keyDerived iod => decide (iod < 2)
  | .cipherKat iod core _ => decide (iod < 2 ∧ core < 5)
  | .signalDetect port => decide (port < 48)
  | .trainingTimeout port => decide (port < 48)
  | .identResend port => decide (port < 48)
  | .ident port _ => decide (port < 48)
  | .linkDown port => decide (port < 48)
  | .linkLost port => decide (port < 48)
  | .flitIdle port _ => decide (port < 48)
  | .flitData port _ => decide (port < 48)
  | .flitMsg port _ => decide (port < 48)
  | .flitRdreq port _ => decide (port < 48)
  | .flitDrain port _ => decide (port < 48)
  | .flitDrainAck port _ => decide (port < 48)
  | .laneSwap port _ => decide (port < 48)
  | .fuelleData f => decide (f.port < 2)
  | .fuelleParity f => decide (f.port < 2)
  | .fuelleAck f => decide (f.port < 2)
  | .fuelleOffer f => decide (f.port < 2)
  | .fuelleClose f => decide (f.port < 2)
  | .fuelleJoin f => decide (f.port < 2)
  | .fuellePacedSend ctx => decide (ctx < 16384)
  | .fuelleAckTimer ctx => decide (ctx < 16384)
  | .fuelleOfferTimer ctx => decide (ctx < 16384)
  | .fuelleRtoExpiry ctx => decide (ctx < 16384)
  | .fuelleRekey ctx => decide (ctx < 16384)
  | .roundQueued => true
  | .roundReady => true
  | .joinEnd => true
  | .joinLimitExpiry => true
  | .ingestData q => decide (q.port < 2)
  | .ingestError q => decide (q.port < 2)
  | .ingestReadTimeout stream _ => decide (stream < 2048)
  | .glbLossScale e _ => decide (e.port < 2)
  | .glbLsPolicy e _ => decide (e.port < 2)
  | .coreWaitLimit e c _ => decide (e.port < 2 ∧ c < 480)
  | .epilogueSetWrite e c set reg _ => decide (e.port < 2 ∧ c < 480 ∧ set < 8 ∧ reg < 4)
  | .updHpWrite e stack set field _ => decide (e.port < 2 ∧ stack < 20 ∧ set < 8 ∧ field < 7)
  | .glbPlanVariant e _ => decide (e.port < 2)
  | .glbEvalCtl e _ => decide (e.port < 2)
  | .glbCommitMark e _ => decide (e.port < 2)
  | .glbMarkInterval e _ => decide (e.port < 2)
  | .sprLastingWindow e _ => decide (e.port < 2)
  | .sprLastingEvents e _ => decide (e.port < 2)
  | .stkScrubCtl e stack _ => decide (e.port < 2 ∧ stack < 20)
  | .lnkMiswirePolicy e _ => decide (e.port < 2)
  | .lnkDownLimit e _ => decide (e.port < 2)
  | .fulUdpPort e _ => decide (e.port < 2)
  | .fulRoundBase e _ => decide (e.port < 2)
  | .fulPace e _ => decide (e.port < 2)
  | .fulJoinLimit e _ => decide (e.port < 2)
  | .isxUdpPort e _ => decide (e.port < 2)
  | .isxIdleLimit e _ => decide (e.port < 2)
  | .ethIpv4 e ep _ => decide (e.port < 2 ∧ ep < 2)
  | .ethIpv6 e ep w _ => decide (e.port < 2 ∧ ep < 2 ∧ w < 4)
  | .ethVlan e ep _ => decide (e.port < 2 ∧ ep < 2)
  | .ethNexthopLo e ep _ => decide (e.port < 2 ∧ ep < 2)
  | .ethNexthopHi e ep _ => decide (e.port < 2 ∧ ep < 2)
  | .ethDscp e ep _ => decide (e.port < 2 ∧ ep < 2)
  | .ethPfc e ep _ => decide (e.port < 2 ∧ ep < 2)
  | .pstWearAddr e _ => decide (e.port < 2)
  | .planCommitDone => true
  | .fwEraseDone => true
  | .refillDone _ => true
  | .unwrapDone => true
  | .quoteDone => true
  | .pllRelock d n => decide (n < d.count)
  | .refclkReturn => true
  | .ethLinkChange ep _ => decide (ep < 2)

end Sys2Proof
end

