-- ==== Sys2Proof/Machine/Ops.lean ====
section
/-!
DEFINITION. The named operations over the state that every family shares: tables, units, the physical address
space (R202, R203), free values, and the form of a meaning.
-/
namespace Sys2Proof.Machine

/-- What a command answers. -/
abbrev Out := Host.Outcome State Fault Refusal

/-- A meaning: the effect on the state where every unit that the command names exists. -/
def guarded (i : Instr) (s : State) (f : State → State) : Out :=
  if wellFormed i then .next (f s) else .fault .noSuchUnit

/-- The same, with the check of `wellFormed` for the row written out: compiled code has no tags for the last rows. -/
def guardedBy (ok : Bool) (s : State) (f : State → State) : Out :=
  if ok then .next (f s) else .fault .noSuchUnit

/-! ### Tables -/

/-- The entry of a key. -/
def tfind {α : Type} : Tab α → Nat → Option α
  | [], _ => none
  | (k', v) :: r, k => if k' = k then some v else tfind r k

/-- The value of a key, with the table's default. -/
def tget {α : Type} (d : α) (t : Tab α) (k : Nat) : α := (tfind t k).getD d

/-- Sets the value of a key; keys stay in rising order. -/
def tput {α : Type} : Tab α → Nat → α → Tab α
  | [], k, v => [(k, v)]
  | (k', w) :: r, k, v =>
    if k < k' then (k, v) :: (k', w) :: r
    else if k = k' then (k, v) :: r
    else (k', w) :: tput r k v

/-- Removes the entries of a key. -/
def tdel {α : Type} (t : Tab α) (k : Nat) : Tab α := t.filter fun e => e.1 != k

/-- Changes the value of a key. -/
def tmod {α : Type} (d : α) (t : Tab α) (k : Nat) (f : α → α) : Tab α := tput t k (f (tget d t k))

/-! ### Units -/

def State.core (s : State) (c : Nat) : Core := tget .reset s.cores c
def State.setCore (s : State) (c : Nat) (x : Core) : State := { s with cores := tput s.cores c x }
def State.modCore (s : State) (c : Nat) (f : Core → Core) : State := s.setCore c (f (s.core c))
def State.cluster (s : State) (g : Nat) : Cluster := tget .reset s.clusters g
def State.setCluster (s : State) (g : Nat) (x : Cluster) : State := { s with clusters := tput s.clusters g x }
def State.modCluster (s : State) (g : Nat) (f : Cluster → Cluster) : State := s.setCluster g (f (s.cluster g))
def State.stack (s : State) (n : Nat) : Stk := tget .reset s.stk n
def State.modStack (s : State) (n : Nat) (f : Stk → Stk) : State := { s with stk := tput s.stk n (f (s.stack n)) }
def State.unit (s : State) (n : Nat) : UpdUnit := tget .reset s.upd n
def State.modUnit (s : State) (n : Nat) (f : UpdUnit → UpdUnit) : State :=
  { s with upd := tput s.upd n (f (s.unit n)) }
def State.port (s : State) (n : Nat) : Link := tget (.reset n) s.link n
def State.setPort (s : State) (n : Nat) (x : Link) : State := { s with link := tput s.link n x }
def State.modPort (s : State) (n : Nat) (f : Link → Link) : State := s.setPort n (f (s.port n))
def State.session (s : State) (n : Nat) : Sess := tget .reset s.sess n
def State.setSession (s : State) (n : Nat) (x : Sess) : State := { s with sess := tput s.sess n x }
def State.fuelle (s : State) (n : Nat) : FulCtx := tget .reset s.fctx n
def State.setFuelle (s : State) (n : Nat) (x : FulCtx) : State := { s with fctx := tput s.fctx n x }
def State.modFuelle (s : State) (n : Nat) (f : FulCtx → FulCtx) : State := s.setFuelle n (f (s.fuelle n))
def State.die (s : State) (n : Nat) : FulDie := tget .reset s.fulDie n
def State.modDie (s : State) (n : Nat) (f : FulDie → FulDie) : State :=
  { s with fulDie := tput s.fulDie n (f (s.die n)) }
def State.ether (s : State) (n : Nat) : Eth := tget .reset s.eth n
def State.modEther (s : State) (n : Nat) (f : Eth → Eth) : State := { s with eth := tput s.eth n (f (s.ether n)) }
def State.cipher (s : State) (n : Nat) : Cip := tget .reset s.cip n
def State.modCipher (s : State) (n : Nat) (f : Cip → Cip) : State := { s with cip := tput s.cip n (f (s.cipher n)) }
def State.stream (s : State) (n : Nat) : IngStream := tget .reset s.ing n
def State.modStream (s : State) (n : Nat) (f : IngStream → IngStream) : State :=
  { s with ing := tput s.ing n (f (s.stream n)) }

/-- Applies a state change for each element of a list, in order. -/
def forEach {α : Type} (l : List α) (f : State → α → State) (s : State) : State := l.foldl f s

/-- The local tick counter (R471). -/
def State.now (s : State) : Nat := s.pwr.tick

/-- Function n of R37 is in reset. -/
def State.inReset (s : State) (n : Nat) : Bool := s.glb.fnReset.getLsbD n

/-! ### Free values (log 5) -/

/-- Takes a ticket of the free-value counter. -/
def State.ticket (s : State) : State := { s with fresh := s.fresh + 1 }

/-- `n` bytes of the free value of a ticket. -/
def freeBytes (ticket n : Nat) : List Byte := (List.range n).map (Config.freeByte ticket)

/-- A salt that is not 0 (R371, R397). -/
def saltOf (ticket : Nat) : W64 := if Config.randomSalt ticket = 0 then 1 else Config.randomSalt ticket

/-! ### Values of the persistent store in service (R442, R450; the indices are the model's, log 15) -/

def ixBoot : Nat := 0
def ixRollback : Nat := 1
def ixBoots : Nat := 2
/-- The sealed owner root key: KEY_ID, eight words of ciphertext, four of tag (R450). -/
def ixOwner : Nat := 3
def ixExchLocked : Nat := 16
def ixMgmtActive : Nat := 17
def ixRepairCause : Nat := 18
def ixWindow : Nat := 20
def ixEvents : Nat := 21
def ixMiswire : Nat := 22
def ixFulPort : Nat := 23
def ixRoundBase : Nat := 24
def ixIsxPort : Nat := 25
def ixCommitMark : Nat := 26
/-- Resources marked lasting (R441). -/
def ixLasting : Nat := 27
/-- ETH_ records of port p: IPV4, four words of IPV6, VLAN, NEXTHOP_LO, NEXTHOP_HI. -/
def ixEth (p k : Nat) : Nat := 30 + 8 * p + k
def ixCoreMap (g : Nat) : Nat := 100 + g
def ixBankMap (g : Nat) : Nat := 140 + g
def ixDieMap (s : Nat) : Nat := 200 + s
def ixPipe (s : Nat) : Nat := 220 + s
def ixCipher (d : Nat) : Nat := 240 + d
def ixLane (n : Nat) : Nat := 250 + n
/-- Arrays 2k and 2k + 1 of a core share a record: the layout of R136 in its two halves. Core 480 + g is the shadow core of
cluster g. -/
def ixColumns (c a : Nat) : Nat := 400 + 2 * c + a / 2
/-- Lane groups 32w to 32w + 31 of a path, one bit each. -/
def ixLaneGroup (q w : Nat) : Nat := 1450 + 8 * q + w
/-- Register-file map of a core: words 0 to 2 hold the entries that spares 3w to 3w + 2 replace, ten bits each, as the
entry's number plus 1. -/
def ixRf (c w : Nat) : Nat := 2400 + 3 * c + w

/-- The shipped value of an index (R10, R218, R360, R410, R411, R457): an index not named ships as 0 (log 6). -/
def shippedOf (ix : Nat) : Nat :=
  if ix = ixBoot then 3 <<< 4
  else if ix = ixWindow then 0x40000000
  else if ix = ixEvents then 0x10
  else if ix = ixFulPort then 0xBAB9
  else if ix = ixIsxPort then 0xBAB8
  else 0

/-- The value of an index in service, and its SEQ. -/
def pstValue (s : State) (ix : Nat) : Nat := (tget (shippedOf ix, 0) s.pst.table ix).1
def pstSeq (s : State) (ix : Nat) : Nat := (tget (shippedOf ix, 0) s.pst.table ix).2

/-! ### The physical address space -/

/-- Where a device physical address lies (R202). -/
inductive Place where
  | fast (stack off : Nat)
  | dense (stack off : Nat)
  | cluster (g off : Nat)
  | cache (c off : Nat)
  | register (off : Nat)
  | unmapped
deriving DecidableEq, Repr

/-- Decodes a physical address (R202, R203). -/
def placeOf (pa : Nat) : Place :=
  if pa < 0x7800000000 then .fast (pa / 0x600000000) (pa % 0x600000000)
  else if 0x10000000000 ≤ pa ∧ pa < 0x24000000000 then
    let q := pa - 0x10000000000
    if q % 0x1000000000 < 0xC00000000 then .dense (q / 0x1000000000) (q % 0x1000000000) else .unmapped
  else if 0x30000000000 ≤ pa ∧ pa < 0x300A0000000 then
    let q := pa - 0x30000000000
    if q % 0x4000000 < 0x3000000 then .cluster (q / 0x4000000) (q % 0x4000000) else .unmapped
  else if 0x30100000000 ≤ pa ∧ pa < 0x3013C000000 then
    let q := pa - 0x30100000000
    .cache (q / 0x200000) (q % 0x200000)
  else if 0xF00000000000 ≤ pa ∧ pa < 0xF00003000000 then .register (pa - 0xF00000000000)
  else .unmapped

/-- Physical addresses of the regions (R202, R248). -/
def fastAddr (stack off : Nat) : Nat := stack * 0x600000000 + off
def denseAddr (stack off : Nat) : Nat := 0x10000000000 + stack * 0x1000000000 + off
def clusterAddr (g off : Nat) : Nat := 0x30000000000 + g * 0x4000000 + off
def cacheAddr (c off : Nat) : Nat := 0x30100000000 + c * 0x200000 + off % 0x200000
/-- Plan-space offset p (R248). -/
def planAddr (p : Nat) : Nat := fastAddr (p / 0x10000000) (0x5F0000000 + p % 0x10000000)

/-- Dense offsets of the step-record slots A and B, and the slot of a sequence number (R227, R241). -/
def slotA : Nat := 0xBF0000000
def slotB : Nat := 0xBF8000000
def slotOf (seq : Nat) : Nat := if seq % 2 = 0 then slotA else slotB

/-- The first offset of the plan region in a stack's fast tier (R204). -/
def planBase : Nat := 0x5F0000000

/-- The address lies in the plan region (R204). -/
def inPlanRegion (pa : Nat) : Bool :=
  match placeOf pa with
  | .fast _ off => decide (planBase ≤ off)
  | _ => false

/-- Logical die and die-local address of a stack offset (R203). -/
def dieOf (off : Nat) : Nat := off / 1024 % 8
def localOf (off : Nat) : Nat := off / 8192 * 1024 + off % 1024

/-- The kind of storage of an address, for `State.gens`. -/
def storageOf (pa : Nat) : Nat :=
  match placeOf pa with
  | .fast _ off => if 0x5EC000000 ≤ off ∧ off < 0x5F0000000 then 4 else 0
  | .dense _ _ => 1
  | .cluster _ _ => 2
  | .cache _ _ => 3
  | _ => 5

/-- The generation of the storage of an address. Test scratch loses its contents with the fast tier too. -/
def genAt (s : State) (pa : Nat) : Nat :=
  let k := storageOf pa
  if k = 4 then tget 0 s.gens 4 + tget 0 s.gens 0 else tget 0 s.gens k

/-- What an unlisted address reads as (log 3, log 4): 0 until a reset or the test step has made the storage
unspecified, then a free value. -/
def memDefault (s : State) (pa : Nat) : Byte :=
  if genAt s pa = 0 then 0 else Config.unspecByte (genAt s pa) pa

/-- The listed byte at an address. -/
def cellFind : List Host.Cell → Nat → Option Byte
  | [], _ => none
  | (k, v) :: r, a => if k = a then some v else if a < k then none else cellFind r a

/-- Lists a byte, or removes it where it equals the default: addresses stay strictly rising. -/
def cellPut (d : Byte) : List Host.Cell → Nat → Byte → List Host.Cell
  | [], a, v => if v = d then [] else [(a, v)]
  | (k, w) :: r, a, v =>
    if a < k then (if v = d then (k, w) :: r else (a, v) :: (k, w) :: r)
    else if a = k then (if v = d then r else (a, v) :: r)
    else (k, w) :: cellPut d r a v

/-- The byte at a physical address. -/
def readByte (s : State) (pa : Nat) : Byte := (cellFind s.mem pa).getD (memDefault s pa)

/-- Writes one byte at a physical address. -/
def writeByte (s : State) (pa : Nat) (v : Byte) : State :=
  { s with mem := cellPut (memDefault s pa) s.mem pa v }

/-- `n` bytes from a physical address. -/
def readBytes (s : State) (pa n : Nat) : List Byte := (List.range n).map fun i => readByte s (pa + i)

/-- Writes bytes from a physical address on. -/
def writeBytes (s : State) (pa : Nat) : List Byte → State
  | [] => s
  | b :: bs => writeBytes (writeByte s pa b) (pa + 1) bs

/-- A little-endian number of `n` bytes at a physical address (R7). -/
def readLe (s : State) (pa n : Nat) : Nat := leNat (readBytes s pa n)

/-- Copies `n` bytes. -/
def copyBytes (s : State) (src dst n : Nat) : State := writeBytes s dst (readBytes s src n)

/-- The memory form of `cellPut`: addresses strictly rising from a bound on, no entry equal to its default. -/
def cellsFrom (dflt : Nat → Byte) : Nat → List Host.Cell → Bool
  | _, [] => true
  | lo, (a, v) :: r => decide (lo ≤ a) && decide (v ≠ dflt a) && cellsFrom dflt (a + 1) r

/-- The memory of a state is in its canonical form. -/
def Memory.wf (s : State) : Bool := cellsFrom (memDefault s) 0 s.mem

/-- The cells of kind k become unspecified or lost: what was written is forgotten and the generation rises
(R461, R483, log 4). -/
def loseStorage (s : State) (k : Nat) : State :=
  { s with
    mem := s.mem.filter fun e => storageOf e.1 != k && !(k == 0 && storageOf e.1 == 4)
    gens := tput s.gens k (tget 0 s.gens k + 1) }

/-- The record slot holds nothing since the tiers were lost; a write of it ends that (R483). -/
def slotLost (s : State) (slot : Nat) : Bool := s.pwr.lostSlots.getLsbD (if slot = slotA then 0 else 1)
def State.fillSlot (s : State) (slot : Nat) : State :=
  { s with pwr := { s.pwr with lostSlots := s.pwr.lostSlots &&& (if slot = slotA then 2 else 1) } }

/-- The stack serves accesses: its logic is clocked, and heat does not leave refresh alone (R480, R485). -/
def stackServes (s : State) (n : Nat) : Bool := !s.pwr.unlocked.contains (.stackLogic, n) && !s.pwr.holdStk.getLsbD n

/-! ### Time -/

/-- The block idles for one tick: the tick counter counts while REFCLK is present (R471, log 10). -/
def idle (s : State) : State :=
  if s.pwr.refPresent then { s with pwr := { s.pwr with tick := (s.pwr.tick + 1) % 2 ^ 64 } } else s

end Sys2Proof.Machine
end

