-- ==== Sys2Proof/Machine/KeyCache.lean ====
section
/-!
DEFINITION. The key cache and its derivation units (R374 to R381): which epochs a session needs, the requests for their keys, and what
each use of a key counts.
-/
namespace Sys2Proof.Machine

/-- The count of a SEQ: the value equal to it modulo 2^32 that lies nearest to `hi` (R394). -/
def nearestCount (hi seq : Nat) : Nat :=
  let base := hi / 2 ^ 32 * 2 ^ 32 + seq
  if base ≥ hi + 2 ^ 31 ∧ base ≥ 2 ^ 32 then base - 2 ^ 32
  else if base + 2 ^ 31 < hi then base + 2 ^ 32
  else base

/-- Epoch of a packet count (R372). -/
def epochOf (count : Nat) : Nat := count / 2 ^ 22

/-- The I/O die and port of a context (R342, R392). -/
def portOf (ctx : Nat) : Nat := ctx / 0x2000 % 2

/-! ### Requests to a derivation unit (R380) -/

/-- Service class of a request: Isaex, then receiving, then sending keys. -/
def KdfReq.rank : KdfReq → Nat
  | .isaex _ _ _ => 0
  | .fuelleRx _ _ => 1
  | .offerRx _ _ => 1
  | .fuelleTx _ _ => 2
  | .offerTx _ _ => 2

/-- Puts a request behind those of its class and ahead of later classes. -/
def insertReq (r : KdfReq) : List KdfReq → List KdfReq
  | [] => [r]
  | x :: l => if r.rank < x.rank then r :: x :: l else x :: insertReq r l

/-- A request reaches the unit: one that finds 64 queued waits outside. -/
def Cip.ask (c : Cip) (r : KdfReq) : Cip :=
  if c.kdf.length < 64 then { c with kdf := insertReq r c.kdf } else { c with kdfOut := c.kdfOut ++ [r] }

/-- Asks the unit of a die for a key; a request already there is not doubled. -/
def askKey (s : State) (iod : Nat) (r : KdfReq) : State :=
  if (s.cipher iod).kdf.contains r || (s.cipher iod).kdfOut.contains r then s else s.modCipher iod fun c => c.ask r

/-- The request at the head of the queue is taken; of those that wait outside, the one that came first takes the place. DESIGN
CHOICE (log 78): spec/ does not order them. -/
def Cip.take (c : Cip) : Cip :=
  let c := { c with kdf := c.kdf.drop 1 }
  match c.kdfOut with
  | [] => c
  | r :: l => { c with kdf := insertReq r c.kdf, kdfOut := l }

/-- Counts keys derived by the unit of a die (R386). -/
def countDerived (s : State) (iod n : Nat) : State := s.modCipher iod fun c => { c with derived := satAdd 0xFFFFFFFF c.derived n }

/-! ### Use of a key (R374, R381) -/

/-- The lengths of a request to a core are allowed: additional data and plaintext. -/
def requestOk (aad plain : Nat) : Bool := decide (plain ≤ 65536 ∧ aad ≤ 256 ∧ 1 ≤ plain + aad)

/-- What a key has been used for so far. -/
def Cip.useOf (c : Cip) (k : KeyName) : KeyUse := (c.uses.find? fun u => u.name == k).getD { name := k, calls := 0, bytes := 0, spent := false }

/-- A use of n bytes stays within both limits. -/
def KeyUse.fits (u : KeyUse) (n : Nat) : Bool := !u.spent && decide (u.calls < 2 ^ 28 ∧ u.bytes + n ≤ 2 ^ 36)

/-- Records a use of n bytes; one that would pass a limit spends the key. -/
def KeyUse.charge (u : KeyUse) (n : Nat) : KeyUse :=
  if u.fits n then { u with calls := u.calls + 1, bytes := u.bytes + n } else { u with spent := true }

/-- Keeps the counts of a key. -/
def Cip.putUse (c : Cip) (u : KeyUse) : Cip := { c with uses := u :: c.uses.filter fun x => x.name != u.name }

/-- A request to a core of a die under a key: the Bool says that it is served. Lengths that are not allowed are counted; where a limit
of the key would be passed, it is refused and the key is used no more. -/
def requestKey (s : State) (iod : Nat) (k : KeyName) (aad plain : Nat) : State × Bool :=
  if !requestOk aad plain then (s.modCipher iod fun c => { c with length := satInc 0xFFFFFFFF c.length }, false)
  else
    let u := (s.cipher iod).useOf k
    (s.modCipher iod fun c => c.putUse (u.charge (aad + plain)), u.fits (aad + plain))

/-- Keys that leave the cache take their counts with them. -/
def dropUses (s : State) (iod : Nat) (gone : KeyName → Bool) : State :=
  s.modCipher iod fun c => { c with uses := c.uses.filter fun u => !gone u.name }

/-- The name of an Isaex key; `mine`: of the direction to the host. -/
def isaexName (ctx : Nat) (mine : Bool) (epoch : Nat) : KeyName := { use := 1, ctx := ctx, mine := mine, epoch := epoch, salt := 0 }

/-- The names of a Fuelle session key and of an offer key. -/
def fuelleName (ctx : Nat) (mine : Bool) (epoch : Nat) : KeyName := { use := 3, ctx := ctx, mine := mine, epoch := epoch, salt := 0 }
def offerName (ctx : Nat) (mine : Bool) (salt : W64) : KeyName := { use := 2, ctx := ctx, mine := mine, epoch := 0, salt := salt }

/-! ### The epochs that a session needs -/

/-- The epochs of a receiving direction whose highest accepted count is h (R376). -/
def rxEpochsOf (hi : Option Nat) : List Nat :=
  let cur := (hi.getD 0 + 2 ^ 21) / 2 ^ 22
  if cur = 0 then [0] else [cur - 1, cur]

/-- Epochs that a sender needs: its current one, and the next within 2^16 of the end (R375). -/
def txEpochsOf (count : Nat) : List Nat :=
  let e := epochOf count
  if (e + 1) * 2 ^ 22 - count ≤ 2 ^ 16 then [e, e + 1] else [e]

/-- Epochs whose host-to-device keys an Isaex session needs. -/
def isaexEpochs (z : Sess) : List Nat := rxEpochsOf z.hi

/-- Epochs whose device-to-host keys it needs: those of its replies, and those of its own event count (R394). -/
def isaexTxEpochs (z : Sess) : List Nat :=
  let l := rxEpochsOf z.hi
  l ++ (txEpochsOf z.evCount).filter fun e => !l.contains e

/-- Asks for the keys that an Isaex session needs and does not hold, and erases those of older epochs (R375, R376). -/
def refreshIsaex (s : State) (ctx : Nat) : State :=
  let z := s.session ctx
  let rx := isaexEpochs z
  let tx := isaexTxEpochs z
  let s := s.setSession ctx { z with epochs := z.epochs.filter rx.contains, txEpochs := z.txEpochs.filter tx.contains }
  let s := dropUses s (portOf ctx) fun k => k.use == 1 && k.ctx == ctx && !(if k.mine then tx else rx).contains k.epoch
  let s := forEach (rx.filter fun e => !z.epochs.contains e) (fun s e => askKey s (portOf ctx) (.isaex ctx e false)) s
  forEach (tx.filter fun e => !z.txEpochs.contains e) (fun s e => askKey s (portOf ctx) (.isaex ctx e true)) s

/-- The session keys of a settled Fuelle context that it needs and does not hold. -/
def refreshFuelle (s : State) (ctx : Nat) : State :=
  let f := s.fuelle ctx
  if f.root.isNone || f.saltPeer == 0 then s
  else
    let rx := rxEpochsOf f.rxHi
    let tx := txEpochsOf f.txCount
    let s := s.setFuelle ctx { f with rxEpochs := f.rxEpochs.filter rx.contains, txEpochs := f.txEpochs.filter tx.contains }
    let s := dropUses s (portOf ctx) fun k => k.use == 3 && k.ctx == ctx && !(if k.mine then tx else rx).contains k.epoch
    let s := forEach (rx.filter fun e => !f.rxEpochs.contains e) (fun s e => askKey s (portOf ctx) (.fuelleRx ctx e)) s
    forEach (tx.filter fun e => !f.txEpochs.contains e) (fun s e => askKey s (portOf ctx) (.fuelleTx ctx e)) s

end Sys2Proof.Machine
end

