-- ==== Sys2Proof/Machine/Report.lean ====
section
/-!
DEFINITION. What the device sends on its Ethernet ports: Isaex replies and events (R392 to R394, R403) and Fuelle
packets (R346, R371 to R375), with the headers around them (R387 to R389), the keys that seal them (R368 to R370), and the event ring.
-/
namespace Sys2Proof.Machine

/-! ### Addresses of a port (R388) -/

/-- An IPv4 address in its IPv4-mapped form (R369). -/
def mapped4 (a : W32) : BitVec 128 := (0xFFFF : BitVec 128) <<< 32 ||| a.setWidth 128

/-- The address is IPv4-mapped. -/
def isMapped4 (a : BitVec 128) : Bool := a >>> 32 == (0xFFFF : BitVec 128)

/-- The IPv6 link-local address of a MAC address, by the modified EUI-64 rule. -/
def linkLocal (mac : BitVec 48) : BitVec 128 :=
  let hi := (mac >>> 24).toNat ^^^ 0x020000
  let lo := mac.toNat % 2 ^ 24
  BitVec.ofNat 128 (0xFE80 * 2 ^ 112 + hi * 2 ^ 40 + 0xFFFE * 2 ^ 24 + lo)

/-- The port's own address towards a peer: IPv4 towards an IPv4-mapped one, else the global IPv6 address where there
is one, else the link-local one. -/
def ownIp (s : State) (port : Nat) (peer : BitVec 128) : BitVec 128 :=
  let e := s.ether port
  if isMapped4 peer then mapped4 e.ipv4
  else if e.ipv6 = 0 then linkLocal (Config.mac port) else e.ipv6

/-- The port passes frames, and its clock runs (R410, R485). -/
def passes (s : State) (port : Nat) : Bool := (s.ether port).linkUp && !s.pwr.unlocked.contains (.ethernet, port)

/-- Counts a frame sent by a port. -/
def countTx (s : State) (port : Nat) : State :=
  s.modEther port fun e => { e with framesTx := satInc 0xFFFFFFFF e.framesTx }

/-- Hands something to a port. -/
def send (s : State) (x : Sent) : State := { s with egress := x :: s.egress }

/-- Class of an Isaex packet by its OPCODE: C0 (0) holds the urgent ones and their replies (R389). -/
def opcodeClass (opcode : Nat) : Nat := if 1 ≤ opcode ∧ opcode ≤ 15 then 0 else 1

/-- Class of a frame that a port sends; ARP replies, neighbour advertisements and PFC frames have none (R389). -/
def Sent.cls : Sent → Option Nat
  | .reply _ _ _ _ _ opcode _ _ _ _ _ => some (opcodeClass opcode)
  | .event _ _ _ _ _ _ _ _ _ => some 1
  | .read _ _ _ _ _ _ _ _ _ _ _ _ _ => some 2
  | .fuelle _ _ _ _ _ _ => some 3
  | .arpReply _ _ _ _ => none
  | .neighbourAdvertisement _ _ _ _ _ _ => none
  | .pfc _ _ _ => none
  | .flit _ _ => none

/-- Bytes of a frame around a datagram, FCS included (R408). -/
def NetHead.bytes (h : NetHead) : Nat := (if h.df then 46 else 66) + (if h.tag.isSome then 4 else 0)

/-- Length of a frame that has a class. -/
def Sent.length : Sent → Nat
  | .reply _ _ _ _ _ _ _ _ _ wire head => head.bytes + wire.length
  | .event _ _ _ _ _ _ _ wire head => head.bytes + wire.length
  | .read _ _ _ _ _ _ _ _ _ _ _ wire head => head.bytes + wire.length
  | .fuelle _ _ _ _ wire head => head.bytes + wire.length
  | .arpReply _ _ _ _ => 64
  | .neighbourAdvertisement _ _ _ _ _ _ => 64
  | .pfc _ _ _ => 64
  | .flit _ _ => 0

/-- A received PFC frame pauses a class's egress (R390). -/
def classPaused (s : State) (port cls : Nat) : Bool :=
  match tfind (s.ether port).paused cls with
  | some t => decide (s.now < t)
  | none => false

/-- The frame waits behind a pause of its class, or behind older frames of it. -/
def frameWaits (s : State) (port : Nat) (x : Sent) : Bool :=
  match x.cls with
  | some c => classPaused s port c || (s.ether port).waits.any fun y => y.cls == some c
  | none => false

/-- Sends a frame on an Ethernet port that passes frames, or queues it while its class is paused. -/
def sendFrame (s : State) (port : Nat) (x : Sent) : State :=
  if !passes s port then s
  else if frameWaits s port x then s.modEther port fun e => { e with waits := e.waits ++ [x] }
  else countTx (send s x) port

/-- The frames at the head of a queue that a deficit covers, what is left of it, and the other frames. -/
def takeDeficit : Nat → List Sent → List Sent × Nat × List Sent
  | _, [] => ([], 0, [])
  | d, x :: l =>
    if x.length ≤ d then
      let r := takeDeficit (d - x.length) l
      (x :: r.1, r.2)
    else ([], d, x :: l)

/-- Deficit round robin over two queues with a quantum of 9,216 bytes each (R389); the number of rounds is the fuel. -/
def fairOrder : Nat → Nat → Nat → List Sent → List Sent → List Sent
  | 0, _, _, a, b => a ++ b
  | n + 1, da, db, a, b =>
    let x := takeDeficit (da + 9216) a
    let y := takeDeficit (db + 9216) b
    x.1 ++ y.1 ++ fairOrder n x.2.1 y.2.1 x.2.2 y.2.2

/-- The frames of classes that are paused no more leave: C0, then C1, then C2 and C3 in turn (R389). -/
def flushEgress (s : State) (port : Nat) : State :=
  let free (x : Sent) : Bool := match x.cls with | some c => !classPaused s port c | none => true
  let go := (s.ether port).waits.filter free
  let of (c : Nat) : List Sent := go.filter fun x => x.cls == some c
  if !passes s port || go.isEmpty then s
  else
    forEach (of 0 ++ of 1 ++ fairOrder go.length 0 0 (of 2) (of 3)) (fun s x => countTx (send s x) port)
      (s.modEther port fun e => { e with waits := e.waits.filter fun x => !free x })

/-! ### The headers of a datagram (R387, R389) -/

/-- 16-bit words of a byte string, most significant byte first, the last filled with a zero byte; the number of bytes is the fuel. -/
def words16 : Nat → List Byte → List Nat
  | 0, _ => []
  | n + 1, bs => if bs.isEmpty then [] else beNat ((bs.take 2 ++ [0]).take 2) :: words16 n (bs.drop 2)

/-- One's complement sum of 16-bit words. -/
def sum16 (ws : List Nat) : Nat := ws.foldl (fun a w => let t := a + w; if t ≥ 65536 then t - 65535 else t) 0

/-- The UDP checksum over the pseudo-header, the UDP header and the datagram; a sum of 0 is sent as all ones. -/
def udpSum (src dst : BitVec 128) (sport dport : Nat) (wire : List Byte) : Nat :=
  let len := 8 + wire.length
  let pseudo :=
    if isMapped4 dst then beBytes 4 src.toNat ++ beBytes 4 dst.toNat ++ [0, 17] ++ beBytes 2 len
    else beBytes 16 src.toNat ++ beBytes 16 dst.toNat ++ beBytes 4 len ++ [0, 0, 0, 17]
  let bs := pseudo ++ beBytes 2 sport ++ beBytes 2 dport ++ beBytes 2 len ++ [0, 0] ++ wire
  let v := 65535 - sum16 (words16 bs.length bs)
  if v = 0 then 65535 else v

/-- The 802.1Q tag of a class on a port: its PCP and the port's VID, where the port sends tagged frames (R387, R410). -/
def vlanTag (e : Eth) (cls : Nat) : Option (Nat × Nat) :=
  if e.vlan.getLsbD 15 then some (bits e.pfc.toNat (4 * cls + 2) (4 * cls), bits e.vlan.toNat 11 0) else none

/-- The headers around a datagram of a class: DF, TTL or hop limit 64, and the UDP checksum filled (R387). -/
def netHead (s : State) (port cls dscp : Nat) (ect : Bool) (src dst : BitVec 128) (sport dport : Nat) (wire : List Byte) : NetHead :=
  { tag := vlanTag (s.ether port) cls, srcIp := src, dstIp := dst, srcPort := sport, dstPort := dport, dscp := dscp
    ecn := if ect then 2 else 0, df := isMapped4 dst, hops := 64, sum := udpSum src dst sport dport wire }

/-- DSCP of C0 to C2 (R389, R410). -/
def classDscp (s : State) (port cls : Nat) : Nat := bits (s.ether port).dscp.toNat (6 * cls + 5) (6 * cls)

/-! ### Isaex keys and packets -/

/-- An alarm of this tick falls into the seal or open of a packet, by its count (R385). DESIGN CHOICE (log 85): whether it does is
free. -/
def alarmMeets (s : State) (count : Nat) : Bool :=
  (s.keys.minorAt == some s.now || s.keys.majorAt == some s.now) && Config.alarmMeets s.fresh count

/-- The key of an Isaex session in a direction and epoch: USE 0x01, endpoint A the host (R370), from the session's owner root key. -/
def isaexKey (s : State) (ctx dir epoch : Nat) : List Byte :=
  let z := s.session ctx
  match z.root with
  | none => []
  | some o =>
    kdf o.key
      { use := 1, dir := dir, epoch := epoch, sched := 0, addrA := z.hostIp, ctxA := ctx, addrB := z.devIp, ctxB := ctx,
        saltA := z.saltA, saltB := z.saltB }

/-- The 16-byte header of R392. -/
def isaexHeader (flags ctx seq opcode length status : Nat) : List Byte :=
  [1, BitVec.ofNat 8 flags] ++ beBytes 2 ctx ++ beBytes 4 seq ++ beBytes 2 opcode ++ beBytes 2 length ++
  beBytes 2 status ++ [0, 0]

/-- The header of a command as it was received. -/
def envHeader (e : Env) : List Byte :=
  [BitVec.ofNat 8 e.version, BitVec.ofNat 8 e.flags] ++ beBytes 2 e.context ++ beBytes 4 e.seq.toNat ++
  beBytes 2 e.opcode ++ beBytes 2 e.length ++ beBytes 2 e.status ++ beBytes 2 e.resv

/-- The sessionless context of a port (R396). -/
def isSessionless (ctx : Nat) : Bool := ctx == 0 || ctx == 0x2000

/-- A reply leaves: to the source of its command, from the address that the command named (R388). -/
def replyFrame (s : State) (e : Env) (status : Nat) (params wire : List Byte) : State :=
  let cls := opcodeClass e.opcode
  sendFrame s e.port (.reply e.port e.context e.srcMac e.srcIp e.srcPort e.opcode e.seq status params wire
    (netHead s e.port cls (classDscp s e.port cls) false e.dstIp e.srcIp s.isx.port e.srcPort wire))

/-- Epoch of the reply to a command (R394). -/
def replyEpoch (z : Sess) (e : Env) : Nat := epochOf (nearestCount (z.hi.getD 0) e.seq.toNat)

/-- Seals and sends a reply; the Bool says that it has left. Without its key it does not. -/
def sealReply (s : State) (e : Env) (status : Nat) (params : List Byte) : State × Bool :=
  let z := s.session e.context
  let epoch := replyEpoch z e
  if !z.txEpochs.contains epoch then (s, false)
  else
    let hdr := isaexHeader 1 e.context e.seq.toNat e.opcode params.length status
    let r := requestKey s (portOf e.context) (isaexName e.context true epoch) hdr.length params.length
    if !r.2 then r
    else
      let (ct, tag) := gcmSeal (isaexKey s e.context 1 epoch) (nonceOf 1 1 0 epoch e.seq.toNat) hdr params
      (replyFrame r.1 e status params (hdr ++ ct ++ tag), true)

/-- A session becomes FREE. -/
def freeSession (s : State) (ctx : Nat) : State :=
  dropUses { s with sess := tdel s.sess ctx } (portOf ctx) fun k => k.use == 1 && k.ctx == ctx

/-- A packet of a session waits until its key is held (R375, R383). -/
def holdOut (s : State) (ctx : Nat) (x : IsxOut) : State :=
  s.setSession ctx { s.session ctx with out := (s.session ctx).out ++ [x] }

/-- The first reply of an epoch whose key is not ready is a wait of R375; one after an erasure of the keys is not. -/
def countReplyWait (s : State) (e : Env) : State :=
  let z := s.session e.context
  let epoch := replyEpoch z e
  let first := !z.out.any fun x => match x with | .event _ => false | .reply y _ _ => replyEpoch z y == epoch
  if epoch ≠ 0 ∧ z.txEpochs.contains epoch = false ∧ z.txEpochs.contains (epoch - 1) = true ∧ first = true then
    s.modCipher (portOf e.context) fun c => { c with pauses := satInc 0xFFFF c.pauses }
  else s

/-- Sends the reply to a command (R392, R394), or holds it until its key is back. A session that has become FREE receives none
(log 12); a reply whose seal an alarm meets is lost (R385). -/
def reply (s : State) (e : Env) (status : Nat) (params : List Byte) : State :=
  if isSessionless e.context then
    replyFrame s e status params (isaexHeader 1 e.context e.seq.toNat e.opcode params.length status ++ params ++ List.replicate 16 0)
  else if (s.session e.context).state = .free then s
  else if alarmMeets s e.seq.toNat then s
  else
    let r := sealReply s e status params
    if r.2 then r.1 else holdOut (countReplyWait r.1 e) e.context (.reply e status params)

/-! ### Events (R403) -/

/-- The 32 bytes of a log record. -/
def recordBytes (r : EventRec) : List Byte :=
  beBytes 4 r.index ++ [BitVec.ofNat 8 r.code, 0, 0, 0] ++ beBytes 8 r.step ++ beBytes 8 r.tick ++
  (r.detail ++ List.replicate (8 - r.detail.length) 0).take 8

/-- The event count of a session has moved: the keys that it then needs are asked for, and where it has reached the end of an epoch
whose next key is not ready, that is a wait (R375). -/
def eventCounted (s : State) (ctx : Nat) : State :=
  let s := refreshIsaex s ctx
  let z := s.session ctx
  if z.evCount % 2 ^ 22 = 0 ∧ z.txEpochs.contains (epochOf z.evCount) = false then
    s.modCipher (portOf ctx) fun c => { c with pauses := satInc 0xFFFF c.pauses }
  else s

/-- Seals and sends an event on a session at its event count; the Bool says that it has left. Where its key has reached a limit, the
event waits for the next epoch's (R374). -/
def sealEvent (s : State) (r : EventRec) (ctx : Nat) : State × Bool :=
  let z := s.session ctx
  let port := portOf ctx
  let count := z.evCount
  if !z.txEpochs.contains (epochOf count) || (s.ether port).nextHop == 0 then (s, false)
  else
    let hdr := isaexHeader 2 ctx (count % 2 ^ 32) 0x14 32 0
    let q := requestKey s port (isaexName ctx true (epochOf count)) hdr.length 32
    if !q.2 then
      (eventCounted (q.1.setSession ctx { q.1.session ctx with evCount := (epochOf count + 1) * 2 ^ 22 }) ctx, false)
    else
      let (ct, tag) := gcmSeal (isaexKey s ctx 1 (epochOf count)) (nonceOf 1 1 1 (epochOf count) (count % 2 ^ 32)) hdr
        (recordBytes r)
      let s := eventCounted (q.1.setSession ctx { q.1.session ctx with evCount := count + 1 }) ctx
      let wire := hdr ++ ct ++ tag
      (sendFrame s port (.event port ctx (s.ether port).nextHop z.hostIp z.hostPort count (recordBytes r) wire
        (netHead s port 1 (classDscp s port 1) false z.devIp z.hostIp s.isx.port z.hostPort wire)), true)

/-- Sends a record on one session: OPEN, its mask bit 1, and the port has a next hop (R388, R403). It waits while its key is missing or
while an older one waits. -/
def sendEventOn (s : State) (r : EventRec) (ctx : Nat) : State :=
  let z := s.session ctx
  if z.state = .isOpen ∧ z.mask.getLsbD r.code = true ∧ (s.ether (portOf ctx)).nextHop ≠ 0 then
    if !z.out.isEmpty then holdOut s ctx (.event r)
    else
      let q := sealEvent s r ctx
      if q.2 then q.1 else holdOut q.1 ctx (.event r)
  else s

/-- The reply to an urgent command. -/
def IsxOut.urgent : IsxOut → Bool
  | .reply e _ _ => opcodeClass e.opcode == 0
  | .event _ => false

/-- Of what waits on a session the packets that `go` selects are tried again, oldest first. -/
def flushWhere (go : IsxOut → Bool) (s : State) (ctx : Nat) : State :=
  if (s.session ctx).state = .free then s
  else
    let out := (s.session ctx).out
    let r := (out.filter go).foldl
      (fun (acc : State × List IsxOut) x =>
        let q := match x with
          | .reply e status params => sealReply acc.1 e status params
          | .event r => sealEvent acc.1 r ctx
        (q.1, if q.2 then acc.2 else acc.2 ++ [x])) (s, [])
    r.1.setSession ctx { r.1.session ctx with out := r.2 ++ out.filter fun x => !go x }

/-- Replies to urgent commands, and then everything that waits (R378). -/
def flushUrgent (s : State) (ctx : Nat) : State := flushWhere IsxOut.urgent s ctx
def flushSession (s : State) (ctx : Nat) : State := flushWhere (fun _ => true) s ctx

/-- The reply that a new owner root key is stored still waits for its key. -/
def ownerReplyWaits (s : State) : Bool :=
  s.sess.any fun z => z.2.out.any fun x => match x with | .reply e status _ => e.opcode == 0x92 && status == 0 | .event _ => false

/-- Sessions keyed from a replaced owner root key become FREE once the reply has been sent (R366). -/
def retireSessions (s : State) : State :=
  if ownerReplyWaits s then s
  else forEach ((s.sess.filter fun z => z.2.root != s.keys.owner).map (·.1)) freeSession s

/-- Sends a record on every session that asks for it. -/
def sendEvent (s : State) (r : EventRec) : State := forEach s.sess (fun s e => sendEventOn s r e.1) s

/-- Logs an event and sends it; while MGMT is in reset it is sent when the reset ends (R403). -/
def raiseEvent (s : State) (code : Nat) (detail : List Byte) : State :=
  let r : EventRec := { index := s.isx.nextEvent, code := code, step := s.run.step, tick := s.now, detail := detail }
  let ring := s.isx.ring ++ [r]
  let s := { s with isx := { s.isx with ring := ring.drop (ring.length - 256), nextEvent := (s.isx.nextEvent + 1) % 2 ^ 32 } }
  if s.inReset 0 then s
  else sendEvent { s with isx := { s.isx with unsent := s.isx.nextEvent } } r

/-- An event whose detail no chapter defines: the eight bytes are free (log 22). -/
def raiseOpen (s : State) (code : Nat) : State := (raiseEvent s code (freeBytes s.fresh 8)).ticket

/-- An event that names a status: it stands in the first byte of the detail, and the others are free (log 22). -/
def raiseStatus (s : State) (code status : Nat) : State :=
  (raiseEvent s code (BitVec.ofNat 8 status :: freeBytes s.fresh 7)).ticket

/-- A discard is reported to the host (event 14) at most once per second and counter (R356, R391). Counters: 0 to 3 those
of ISX_; 8 + 16 × port on, those of ETH_; 64 + 16 × die on, those of FUL_. -/
def discardReport (s : State) (counter : Nat) : State :=
  match tfind s.isx.reports counter with
  | some t =>
    if s.now - t < 100000000 then s
    else raiseOpen { s with isx := { s.isx with reports := tput s.isx.reports counter s.now } } 14
  | none => raiseOpen { s with isx := { s.isx with reports := tput s.isx.reports counter s.now } } 14

/-- Sends the events that a reset of MGMT held back (R403). -/
def sendUnsent (s : State) : State :=
  let s' := forEach (s.isx.ring.filter fun r => decide (s.isx.unsent ≤ r.index)) sendEvent s
  { s' with isx := { s'.isx with unsent := s'.isx.nextEvent } }

/-- The detail of events 2, 3, 4 and 8: the resource word, and for class 14 the register (R502). -/
def resDetail (res extra : Nat) : List Byte := beBytes 4 res ++ beBytes 4 extra

/-! ### Fuelle keys and packets -/

/-- This end of a Fuelle session is endpoint A: the lower by address, then by context number (R370). -/
def fulIsA (s : State) (ctx : Nat) : Bool :=
  let f := s.fuelle ctx
  let own := (ownIp s (portOf ctx) f.peerIp).toNat
  decide (own < f.peerIp.toNat) || (decide (own = f.peerIp.toNat) && decide (ctx ≤ f.peerCtx))

/-- A Fuelle key: USE 0x02 for OFFER with only the sender's salt, USE 0x03 for the session (R370, R371). `mine`: the
key of this end's sending direction. -/
def fulKey (s : State) (ctx use : Nat) (mine : Bool) (epoch : Nat) : List Byte :=
  let f := s.fuelle ctx
  let own := ownIp s (portOf ctx) f.peerIp
  let a := fulIsA s ctx
  let dir := if a = mine then 0 else 1
  let sOwn := if use = 2 ∧ mine = false then 0 else f.saltOwn
  let sPeer := if use = 2 ∧ mine = true then 0 else f.saltPeer
  let root := if use = 2 then s.keys.cur else f.root
  let sched := ((s.run.plan.bind (·.fuelle)).map (·.schedId)).getD 0
  match root with
  | none => []
  | some r =>
    kdf r.key
      { use := use, dir := dir, epoch := epoch, sched := sched.toNat,
        addrA := if a then own else f.peerIp, ctxA := if a then ctx else f.peerCtx,
        addrB := if a then f.peerIp else own, ctxB := if a then f.peerCtx else ctx,
        saltA := if a then sOwn else sPeer, saltB := if a then sPeer else sOwn }

/-- DIR of a packet that this end sends (`mine`) or receives. -/
def fulDir (s : State) (ctx : Nat) (mine : Bool) : Nat := if fulIsA s ctx = mine then 0 else 1

/-- The 32-byte header of R346. -/
def fulHeader (f : FPkt) : List Byte :=
  [BitVec.ofNat 8 f.version, BitVec.ofNat 8 f.typ] ++ beBytes 2 f.context ++ beBytes 4 f.seq.toNat ++
  beBytes 4 f.epoch.toNat ++ beBytes 4 f.round.toNat ++ beBytes 4 f.group.toNat ++
  [BitVec.ofNat 8 f.index, BitVec.ofNat 8 f.k, BitVec.ofNat 8 f.m, BitVec.ofNat 8 f.flags] ++ beBytes 2 f.len ++
  beBytes 2 f.resv ++ beBytes 4 f.tick.toNat

/-- A Fuelle packet of this end before it is sealed. -/
def fulBlank (s : State) (ctx typ : Nat) (plain : List Byte) : FPkt :=
  let f := s.fuelle ctx
  { port := portOf ctx, srcIp := ownIp s (portOf ctx) f.peerIp, srcPort := pstValue s ixFulPort, version := 1, typ := typ,
    context := f.peerCtx, seq := 0, epoch := 0, round := 0, group := 0, index := 0, k := 0, m := 0, flags := 0,
    len := plain.length, resv := 0, tick := BitVec.ofNat 32 s.now, plain := plain, tag := 0, ce := false }

/-- A sealed Fuelle packet leaves with the session's DSCP; ECT(0) where ECN is enabled for the session and by `FUL_PACE` (R346, R354,
R360, R389). -/
def fulFrame (s : State) (ctx : Nat) (p : FPkt) (ct tag : List Byte) : State :=
  let f := s.fuelle ctx
  let port := portOf ctx
  let wire := fulHeader p ++ ct ++ tag
  sendFrame s port (.fuelle { p with tag := BitVec.ofNat 128 (beNat tag) } f.peerIp f.peerPort (s.ether port).nextHop wire
    (netHead s port 3 f.dscp (f.ecn && s.ful.shareEcn) p.srcIp f.peerIp p.srcPort f.peerPort wire))

/-- The key of the next packet is held. -/
def FulCtx.canSeal (c : FulCtx) : Bool := c.txEpochs.contains (epochOf c.txCount)

/-- The keys that a session's count needs are asked for. Where it has reached the end of an epoch whose next key is not ready, an OPEN
or JOINING session becomes PAUSED (R344, R375). -/
def keyWait (s : State) (ctx : Nat) : State :=
  let s := refreshFuelle s ctx
  let c := s.fuelle ctx
  if c.canSeal = false ∧ c.txCount ≠ 0 ∧ c.txCount % 2 ^ 22 = 0 ∧ (c.state = 2 ∨ c.state = 3) then
    let s := s.modFuelle ctx fun c => { c with before := c.state, state := 4 }
    raiseOpen (s.modCipher (portOf ctx) fun x => { x with pauses := satInc 0xFFFF x.pauses }) 11
  else s

/-- Seals a packet under the session key at the sender's count and sends it (R372, R373); the Bool says so. A key that has reached a
limit does not serve it. -/
def sealFul (s : State) (ctx : Nat) (p : FPkt) : State × Bool :=
  let f := s.fuelle ctx
  let epoch := epochOf f.txCount
  let p := { p with seq := BitVec.ofNat 32 f.txCount, epoch := BitVec.ofNat 32 epoch }
  let r := requestKey s (portOf ctx) (fuelleName ctx true epoch) 32 p.plain.length
  if !r.2 then r
  else
    let (ct, tag) := gcmSeal (fulKey s ctx 3 true epoch) (nonceOf 3 (fulDir s ctx true) 0 epoch (f.txCount % 2 ^ 32))
      (fulHeader p) p.plain
    (keyWait (fulFrame (r.1.setFuelle ctx { f with txCount := f.txCount + 1 }) ctx p ct tag) ctx, true)

/-- Sends a packet; nothing is sent while the port has no next hop, or while the key of the epoch is not held (R375, R388). One that
meets a limit waits for the next epoch's key (R374); of one whose seal an alarm meets, the count stays consumed (R385). -/
def fulSend (s : State) (ctx : Nat) (p : FPkt) : State :=
  let f := s.fuelle ctx
  if (s.ether (portOf ctx)).nextHop = 0 then s
  else if alarmMeets s f.txCount then keyWait (s.setFuelle ctx { f with txCount := f.txCount + 1 }) ctx
  else if f.canSeal = false then keyWait s ctx
  else
    let q := sealFul s ctx p
    if q.2 then q.1
    else
      let s := keyWait (q.1.modFuelle ctx fun c => { c with txCount := (epochOf c.txCount + 1) * 2 ^ 22 }) ctx
      if (s.fuelle ctx).canSeal then (sealFul s ctx p).1 else s.modFuelle ctx fun c => { c with due := c.due ++ [p] }

/-- The session waits to join, also while it is PAUSED. -/
def FulCtx.joining (f : FulCtx) : Bool := f.state == 3 || (f.state == 4 && f.before == 3)

/-- A join that has no session left is over (R358). -/
def settleJoin (s : State) : State :=
  if s.fctx.any (fun e => e.2.joining) then s else { s with ful := { s.ful with joinSince := none } }

/-- The session becomes FREE (R344) and the event is reported; CLOSE is sent where asked. -/
def fulFree (s : State) (ctx : Nat) (sendClose : Bool) : State :=
  let f := s.fuelle ctx
  if f.state = 0 then s
  else
    let s := if sendClose ∧ (f.state = 2 ∨ f.state = 3) ∧ f.saltPeer ≠ 0 then fulSend s ctx (fulBlank s ctx 5 []) else s
    let s := dropUses { s with fctx := tdel s.fctx ctx } (portOf ctx) fun k => k.use != 1 && k.ctx == ctx
    raiseOpen (settleJoin s) 11

/-- Every Fuelle session becomes FREE (R344, R359). -/
def fulFreeAll (s : State) (sendClose : Bool) : State :=
  forEach (s.fctx.map (·.1)) (fun s c => fulFree s c sendClose) s

end Sys2Proof.Machine
end

