-- ==== Sys2Proof/Machine/Store.lean ====
section
/-!
DEFINITION. Writes of the persistent store (R442 to R449): asking for one, starting one, and the records they leave.
What a completed write does besides is in Machine/StoreEvents.lean.
-/
namespace Sys2Proof.Machine

/-- Both die stores are lost (R449). -/
def pstDead (s : State) : Bool := s.pst.lost0 && s.pst.lost1

/-- The value that an index holds once every write asked for has completed. -/
def pstLatest (s : State) (ix : Nat) : Nat :=
  let all := s.pst.inFlight.toList ++ s.pst.queue ++ s.pst.waiting
  ((all.filter fun w => w.index == ix).getLast?.map (·.value)).getD (pstValue s ix)

/-- SEQ of an index once every write asked for has completed. -/
def pstLatestSeq (s : State) (ix : Nat) : Nat :=
  pstSeq s ix + ((s.pst.inFlight.toList ++ s.pst.queue ++ s.pst.waiting).filter fun w => w.index == ix).length

/-- Endurance limit of R465. -/
def enduranceLimit : Nat := 0x000F4240

/-- Puts the device's own write behind the own writes already queued and ahead of host writes (R444). -/
def insertOwn (w : PstWrite) : List PstWrite → List PstWrite
  | [] => [w]
  | x :: r => if x.own then x :: insertOwn w r else w :: x :: r

/-- Waiting own writes enter the queue as places free (R444); the number of free places is the fuel. -/
def admitOwn : Nat → Pst → Pst
  | 0, p => p
  | n + 1, p =>
    match p.waiting with
    | [] => p
    | w :: r => admitOwn n { p with queue := insertOwn w p.queue, waiting := r }

/-- Offset in register space of the WP register that an index holds; the others are internal records (R450, R502). -/
def pstRegister (ix : Nat) : Option Nat :=
  if ix = ixWindow then some 0x60000
  else if ix = ixEvents then some 0x60004
  else if ix = ixCommitMark then some 0xA0
  else if ix = ixMiswire then some 0x600F00
  else if ix = ixFulPort then some 0x400000
  else if ix = ixRoundBase then some 0x400004
  else if ix = ixIsxPort then some 0x70000
  else if 30 ≤ ix ∧ ix < 46 then some (0x30000C + 0x10000 * ((ix - 30) / 8) + 4 * ((ix - 30) % 8))
  else none

/-- The detail of event 2 for a record (R502). -/
def recordDetail (ix : Nat) : List Byte := resDetail (14 <<< 24 ||| ix) ((pstRegister ix).getD 0xFFFFFFFF)

/-- Writes start: no rail is below warning, and the device is in no dip (R448, R476). -/
def storePowered (s : State) : Bool := s.pwr.low == 0 && !s.pwr.dip

/-- A write may start; that of EXCH_LOCKED at a major alarm does at any rail level (R448). -/
def mayStart (s : State) (w : PstWrite) : Bool := storePowered s || w.hook == .exchLocked

/-- Starts the next write where none is in progress (R444, R448). -/
def startWrite (s : State) : State :=
  match s.pst.inFlight, s.pst.queue with
  | none, w :: r =>
    if mayStart s w then
      let p := { s.pst with inFlight := some w, queue := r, retry0 := false, retry1 := false }
      { s with pst := admitOwn (16 - r.length) p }
    else s
  | _, _ => s

/-- What asking for a host write answers. -/
inductive WriteAnswer where
  | same
  | queued (ticket : Nat)
  | busy
  | worn
  | dead
deriving DecidableEq, Repr

/-- A major alarm's write of EXCH_LOCKED takes the place of every earlier write of that record that has not begun (R35, R384). -/
def dropLocks (s : State) (hook : PstHook) : State :=
  if hook = .exchLocked then
    { s with pst := { s.pst with queue := s.pst.queue.filter fun w => w.index != ixExchLocked
                                 waiting := s.pst.waiting.filter fun w => w.index != ixExchLocked } }
  else s

/-- The device's own write (R444, R447 to R449). -/
def ownWrite (s : State) (ix value : Nat) (hook : PstHook) : State :=
  if pstDead s then s
  else if pstLatestSeq s ix ≥ enduranceLimit then
    raiseEvent { s with pst := { s.pst with wornRefused := satInc 0xFFFF s.pst.wornRefused } } 2
      (recordDetail ix)
  else
    let s := dropLocks s hook
    let w : PstWrite := { index := ix, value := value, own := true, ticket := s.pst.nextTicket, hook := hook }
    let p : Pst := { s.pst with nextTicket := s.pst.nextTicket + 1 }
    let p : Pst :=
      if hook = .exchLocked then { p with queue := w :: p.queue }
      else if p.queue.length < 16 ∧ p.waiting.isEmpty then { p with queue := insertOwn w p.queue }
      else { p with waiting := p.waiting ++ [w] }
    startWrite { s with pst := p }

/-- The device's own write where the value differs from the one held (R444). -/
def ownWriteIfNew (s : State) (ix value : Nat) (hook : PstHook) : State :=
  if pstLatest s ix = value then s else ownWrite s ix value hook

/-- A host write (R12, R444, R447 to R449): a value equal to the stored one writes nothing. -/
def hostWrite (s : State) (ix value : Nat) (hook : PstHook) : State × WriteAnswer :=
  if pstDead s then (s, .dead)
  else if pstValue s ix = value then (s, .same)
  else if pstLatestSeq s ix ≥ enduranceLimit then (s, .worn)
  else if storePowered s = false then (s, .busy)
  else if s.pst.queue.length ≥ 16 then (s, .busy)
  else
    let w : PstWrite := { index := ix, value := value, own := false, ticket := s.pst.nextTicket, hook := hook }
    (startWrite { s with pst := { s.pst with nextTicket := s.pst.nextTicket + 1, queue := s.pst.queue ++ [w] } },
      .queued s.pst.nextTicket)

/-- The record that a write leaves (R442, R443). -/
def recordOf (ix value seq : Nat) : PstRec :=
  { index := ix, value := value,
    crc := crc32c (leBytes 2 ix ++ [0, 0] ++ leBytes 4 value ++ leBytes 4 seq), seq := seq }

/-- A record is valid (R445). -/
def PstRec.valid (r : PstRec) (ix : Nat) : Bool :=
  r.index == ix && r.crc == crc32c (leBytes 2 r.index ++ [0, 0] ++ leBytes 4 r.value ++ leBytes 4 r.seq)

/-- Key of a physical record: die, bank (R442); the bank is A (0) where SEQ is even (R443). -/
def physKey (ix die seq : Nat) : Nat := 4 * ix + 2 * die + seq % 2

/-- The physical record of a key; one not listed is the shipped one (log 6). -/
def physAt (s : State) (key : Nat) : PstRec :=
  tget (recordOf (key / 4) (shippedOf (key / 4)) 0) s.pst.phys key

/-- The four fields of the boot record in its 32-bit VALUE: ACTIVE [1:0], PREV [2], PENDING [5:4] (3 none), TRIAL [6],
RESULT [15:8] (R457, log 15). -/
structure BootRec where
  active : Nat
  prev : Nat
  pendingSlot : Nat
  trial : Bool
  result : Nat
deriving DecidableEq, Repr

def BootRec.ofNat (v : Nat) : BootRec :=
  { active := bits v 1 0, prev := bits v 2 2, pendingSlot := bits v 5 4, trial := bit v 6, result := bits v 15 8 }

def BootRec.toNat (b : BootRec) : Nat :=
  b.active % 4 + b.prev % 2 * 4 + b.pendingSlot % 4 * 16 + b2n b.trial * 64 + b.result % 256 * 256

/-- The boot record in service, and with every write asked for. -/
def bootRec (s : State) : BootRec := .ofNat (pstValue s ixBoot)
def bootRecLatest (s : State) : BootRec := .ofNat (pstLatest s ixBoot)

end Sys2Proof.Machine
end

