-- ==== Sys2Proof/Machine/LinkOps.lean ====
section
/-!
DEFINITION. What links send: the identity message (R292), flits with their headers and parity (R285, R286), credit and
replay (R287, R288), and transfers over a port.
-/
namespace Sys2Proof.Machine

/-! ### Identity -/

/-- The codec generations held, in CODEC order (R320). -/
def heldGens (s : State) : List Nat := s.fw.gens.map (·.gen)

/-- The 128 bytes of the identity message of a port (R292). -/
def identMsg (s : State) (port : Nat) : List Byte :=
  let x := s.port port
  let plan := s.run.plan
  let body : List Byte :=
    beBytes 2 1 ++ [BitVec.ofNat 8 port, BitVec.ofNat 8 (port % 6 * 16 + port / 6)] ++ beBytes 16 Config.serial.toNat ++
    beBytes 4 ((plan.map (·.gen)).getD 0) ++ beBytes 4 ((plan.map (·.part)).getD 0) ++ s.fw.manifestDigest.take 32 ++
    beBytes 2 2 ++ ((heldGens s ++ [0, 0, 0, 0]).take 4).map (BitVec.ofNat 8) ++ beBytes 4 s.fw.features ++
    beBytes 4 ((plan.map (·.features)).getD 0) ++
    (match plan with
      | some p => [BitVec.ofNat 8 p.pos.1, BitVec.ofNat 8 p.pos.2.1, BitVec.ofNat 8 p.pos.2.2]
      | none => [0, 0, 0]) ++
    [BitVec.ofNat 8 (s.lnk.bpos + 16 * b2n x.announceReset)] ++ List.replicate 46 0
  body ++ beBytes 4 (crc32c body)

/-- Reads an identity message; a wrong length, FORMAT or CHECK gives none. -/
def parseIdent (m : List Byte) : Option Ident :=
  let f (i n : Nat) : Nat := beNat ((m.drop i).take n)
  if m.length ≠ 128 ∨ f 0 2 ≠ 1 ∨ f 124 4 ≠ crc32c (m.take 124) then none
  else
    some
      { port := f 2 1, dir := bits (f 3 1) 6 4, idx := bits (f 3 1) 2 0, serial := BitVec.ofNat 128 (f 4 16), gen := f 20 4,
        part := f 24 4, manifest := (m.drop 28).take 32, proto := f 60 2,
        codec := (((m.drop 62).take 4).map (·.toNat)).filter (· ≠ 0), features := f 66 4, planfeat := f 70 4,
        bpos := bits (f 77 1) 1 0, reset := bit (f 77 1) 4, raw := m }

/-! ### Flits -/

/-- The 32 header bytes of a flit (R285). -/
def flitHeader (f : Flit) : List Byte :=
  leBytes 32
    (f.typ.toNat + b2n f.first * 2 ^ 4 + b2n f.last * 2 ^ 5 + b2n f.ovf * 2 ^ 6 + b2n f.taint * 2 ^ 7 + f.phase.toNat * 2 ^ 8 +
      f.attempt.toNat * 2 ^ 11 + f.seq.toNat * 2 ^ 16 + f.ack.toNat * 2 ^ 32 + b2n f.nak * 2 ^ 48 + b2n f.coded * 2 ^ 49 +
      b2n f.board * 2 ^ 50 + f.bpos.toNat * 2 ^ 51 + f.words.toNat * 2 ^ 56 + f.route.toNat * 2 ^ 64 + f.rtok.toNat * 2 ^ 80 +
      f.step.toNat * 2 ^ 96 + f.credit.toNat * 2 ^ 112 + f.dst.toNat * 2 ^ 128 + f.part.toNat * 2 ^ 192 + f.gen.toNat * 2 ^ 224)

/-- Parity of one byte. -/
def byteParity (b : Byte) : Bool := (List.range 8).foldl (fun a i => a != b.getLsbD i) false

/-- Parity bits of the 32-bit words of a byte string, word i in bit i (R209). -/
def wordParities : List Byte → Nat
  | a :: b :: c :: d :: r => b2n (byteParity (a ^^^ b ^^^ c ^^^ d)) + 2 * wordParities r
  | _ => 0

/-- The parity of header and payload of a flit. -/
def flitParity (f : Flit) : BitVec 136 :=
  BitVec.ofNat 136 (wordParities (flitHeader f ++ (f.payload ++ List.replicate (512 - f.payload.length) 0)))

/-- An empty flit of a type with the sender's step, phase, attempt, partition and generation. -/
def blankFlit (s : State) (typ : Nat) : Flit :=
  { typ := BitVec.ofNat 4 typ, first := true, last := true, ovf := s.glb.lsOvf, taint := s.run.tainted,
    phase := BitVec.ofNat 3 s.run.phase, attempt := BitVec.ofNat 4 s.run.attempt, resv := 0, seq := 0, ack := 0, nak := false,
    coded := false, board := false, bpos := 0, words := 0, route := 0, rtok := 0, step := BitVec.ofNat 16 s.run.step,
    credit := 0, dst := 0, part := BitVec.ofNat 32 ((s.run.plan.map (·.part)).getD 0),
    gen := BitVec.ofNat 32 ((s.run.plan.map (·.gen)).getD 0), payload := List.replicate 512 0, parity := 0, symbols := [] }

/-- The kinds of R286 and R287: a flit that uses credit. -/
def usesCredit (f : Flit) : Bool := f.typ == 1 || f.typ == 2 || f.typ == 4

/-- Puts the acknowledgement and the credit of the receiver into a flit and seals its parity. -/
def sealFlit (x : Link) (f : Flit) : Flit :=
  let f := { f with ack := x.rxSeq, nak := x.nak, credit := BitVec.ofNat 16 x.freed }
  { f with parity := flitParity f }

/-- A port once a flit has carried its acknowledgement, credit and NAK. -/
def Link.carried (x : Link) : Link := { x with freed := 0, nak := false, told := x.rxSeq }

/-- The link PLL of a port is locked (R485). -/
def linkClocked (s : State) (port : Nat) : Bool := !s.pwr.unlocked.contains (.link, port)

/-- Sends the identity message on a port in a CTRL flit of code 4, which advances no SEQ (R286, log 23). A port without its clock sends
it later. -/
def sendIdent (s : State) (port : Nat) : State :=
  let x := s.port port
  if !linkClocked s port then s.setPort port { x with identSent := false }
  else
    let out := sealFlit x { blankFlit s 3 with
      seq := x.txSeq, words := 33, payload := [4, 0, 0, 0] ++ identMsg s port ++ List.replicate 380 0 }
    send (s.setPort port { x.carried with identSent := true }) (.flit port out)

/-- In QUIESCED a sender sends no DATA, MSG or RDREQ (R306). -/
def linkHeld (s : State) : Bool := s.glb.state == .quiesced

/-- A flit may leave on a port now: UP, or CTRL in quarantine; its clock; a place in the replay buffer; credit where it uses any
(R287, R288, R295, R306, R485). -/
def mayLeave (s : State) (port : Nat) (f : Flit) : Bool :=
  let x := s.port port
  (x.state == 4 || (x.state == 6 && f.typ == 3)) && decide (x.replay.length < 4096) && linkClocked s port &&
  (!usesCredit f || (decide (0 < x.credit) && !linkHeld s))

/-- Sends the flit with the next sequence number. -/
def leave (s : State) (port : Nat) (f : Flit) : State :=
  let x := s.port port
  let f := { f with seq := x.txSeq, taint := f.taint || s.run.tainted }
  let out := sealFlit x f
  let s := s.setPort port { x.carried with txSeq := x.txSeq + 1, replay := x.replay ++ [f]
                                           credit := if usesCredit f then x.credit - 1 else x.credit }
  send s (.flit port out)

/-- Hands a flit to a port: it leaves, or waits behind those that wait. -/
def sendFlit (s : State) (port : Nat) (f : Flit) : State :=
  if (s.port port).waiting.isEmpty && mayLeave s port f then leave s port f
  else s.modPort port fun x => { x with waiting := x.waiting ++ [f] }

/-- Sends the flits that wait, in order, as far as they may leave; their number is the fuel. -/
def flushLoop (port : Nat) : Nat → State → State
  | 0, s => s
  | n + 1, s =>
    match (s.port port).waiting with
    | [] => s
    | f :: r =>
      if mayLeave s port f then flushLoop port n (leave (s.modPort port fun x => { x with waiting := r }) port f) else s

def flushPort (s : State) (port : Nat) : State := flushLoop port (s.port port).waiting.length s

/-- Sends the flits that wait on every port. -/
def flushAll (s : State) : State := forEach (List.range 48) flushPort s

/-- An IDLE flit carries acknowledgement, credit and NAK (R286), in training from order 3 on (R293); IDLE flits are not numbered
(log 23). -/
def sendIdle (s : State) (port : Nat) : State :=
  let x := s.port port
  if (x.state = 2 ∨ x.state = 3 ∨ x.state = 4 ∨ x.state = 6) ∧ linkClocked s port = true then
    let out := sealFlit x { blankFlit s 0 with seq := x.txSeq }
    send (s.setPort port x.carried) (.flit port out)
  else s

/-- An IDLE flit is due where nothing else is ready: it carries an acknowledgement, a credit, a NAK or a taint that no flit has
carried yet. One that would repeat the last is not listed (R286, log 23). -/
def idleDue (s : State) (port : Nat) : Bool :=
  let x := s.port port
  (x.state == 4 || x.state == 6) && (x.freed != 0 || x.nak || x.told != x.rxSeq || s.run.tainted)

/-- A CTRL flit: code in payload byte 0, argument in byte 1 (R286). -/
def sendCtrl (s : State) (port code arg phase : Nat) : State :=
  sendFlit s port
    { blankFlit s 3 with
      phase := BitVec.ofNat 3 phase, words := 1
      payload := [BitVec.ofNat 8 code, BitVec.ofNat 8 arg] ++ List.replicate 510 0 }

/-- Resends every unacknowledged flit in order (R288, R289); in quarantine only CTRL (R295). -/
def resendAll (s : State) (port : Nat) : State :=
  forEach ((s.port port).replay.filter fun f => linkClocked s port && ((s.port port).state != 6 || f.typ == 3))
    (fun s f =>
      let x := s.port port
      send (s.setPort port x.carried) (.flit port (sealFlit x { f with taint := f.taint || s.run.tainted }))) s

/-! ### Transfers -/

/-- The physical port of a logical one (R297). -/
def physPort (s : State) (l : Nat) : Nat := tget l s.lnk.map l

/-- Physical ports in use under the committed plan. -/
def usedPorts (s : State) : List Nat := (List.range 48).filter fun n => (s.port n).used

/-- Payloads of 512 bytes; the number of bytes is the fuel. -/
def chunks (n : Nat) : Nat → List Byte → List (List Byte)
  | 0, _ => []
  | fuel + 1, bs => if bs.isEmpty then [] else bs.take n :: chunks n fuel (bs.drop n)

/-- The flits of a transfer of bytes to a destination address; a transfer of no bytes is one header-only flit (R273). -/
def transferFlits (f : Flit) (dst : Nat) (bytes : List Byte) : List Flit :=
  let parts := chunks 512 bytes.length bytes
  let parts := if parts.isEmpty then [[]] else parts
  (List.range parts.length).map fun i =>
    let p := parts.getD i []
    { f with
      first := i == 0, last := i + 1 == parts.length, words := BitVec.ofNat 8 ((p.length + 3) / 4)
      dst := BitVec.ofNat 56 (dst + 512 * i), payload := p ++ List.replicate (512 - p.length) 0 }

/-- Sends a transfer over a physical port. -/
def sendTransfer (s : State) (port : Nat) (f : Flit) (dst : Nat) (bytes : List Byte) : State :=
  forEach (transferFlits f dst bytes) (fun s f => sendFlit s port f) s

/-- Ports that are UP towards a device (R436), and those of them that are used (R425), in ascending order. -/
def portsTo (s : State) (serial : BitVec 128) : List Nat :=
  (List.range 48).filter fun n =>
    let x := s.port n
    x.state == 4 && (match x.nbr with | some i => i.serial == serial | none => false)
def usedTo (s : State) (serial : BitVec 128) : List Nat := (portsTo s serial).filter fun n => (s.port n).used

/-! ### Messages to the management mailbox (R425) -/

/-- The RTOK of a message. -/
def mailTok (code : Nat) : Nat := 2 ^ 15 + code * 2 ^ 9 + 0x1FF

/-- An RTOK names the management mailbox. -/
def isMail (rtok : Nat) : Bool := bit rtok 15 && bits rtok 8 0 == 0x1FF

/-- A DATA flit of a message. -/
def mailFlit (s : State) (code route : Nat) : Flit :=
  { blankFlit s 1 with rtok := BitVec.ofNat 16 (mailTok code), route := BitVec.ofNat 16 route }

/-- A message to a neighbour: DATA transfers with ROUTE 0xFFFF, spread in units of 4 KiB over the used ports towards it, as R309 spreads
units. DESIGN CHOICE (log 83): spec/ gives no DST; it is the offset of the unit in the message. -/
def sendMailbox (s : State) (code : Nat) (ports : List Nat) (content : List Byte) : State :=
  if ports.isEmpty then s
  else
    let units := chunks 4096 content.length content
    forEach (List.range units.length) (fun s i =>
      sendTransfer s (ports.getD (i % ports.length) 0) (mailFlit s code 0xFFFF) (4096 * i) (units.getD i [])) s

end Sys2Proof.Machine
end

