-- ==== Sys2Proof/Machine/Num.lean ====
section
/-!
DEFINITION. The number formats of R42 to R52: exact values, rounding to nearest with ties to even, conversion with its
status bits, stochastic rounding (R53) and the Philox4x32-10 generator (R54).
-/
namespace Sys2Proof.Machine

/-- The formats of R76, with INT32 of the vector engine. -/
inductive NumFmt where
  | fp32 | bf16 | e4m3 | e5m2 | fp4 | int8 | int32
deriving DecidableEq, Repr

/-- The format of a code of R76; 7 is reserved. -/
def NumFmt.ofCode : Nat → Option NumFmt
  | 0 => some .fp32
  | 1 => some .bf16
  | 2 => some .e4m3
  | 3 => some .e5m2
  | 4 => some .fp4
  | 5 => some .int8
  | 6 => some .int32
  | _ => none

/-- Width in bits (R42). -/
def NumFmt.width : NumFmt → Nat
  | .fp32 => 32
  | .bf16 => 16
  | .e4m3 => 8
  | .e5m2 => 8
  | .fp4 => 4
  | .int8 => 8
  | .int32 => 32

/-- An exact value: NaN, an infinity, or ± m × 2^e. -/
inductive Num where
  | nan
  | inf (neg : Bool)
  | fin (neg : Bool) (m : Nat) (e : Int)
deriving DecidableEq, Repr

/-- Mantissa bits and bias of a floating format. -/
def NumFmt.mbits : NumFmt → Nat
  | .fp32 => 23
  | .bf16 => 7
  | .e4m3 => 3
  | .e5m2 => 2
  | .fp4 => 1
  | _ => 0

def NumFmt.bias : NumFmt → Nat
  | .fp32 => 127
  | .bf16 => 127
  | .e4m3 => 7
  | .e5m2 => 15
  | .fp4 => 1
  | _ => 0

/-- Code without sign of the largest finite value (R42). -/
def NumFmt.maxCode : NumFmt → Nat
  | .fp32 => 0x7F7FFFFF
  | .bf16 => 0x7F7F
  | .e4m3 => 0x7E
  | .e5m2 => 0x7B
  | .fp4 => 0x7
  | _ => 0

/-- The canonical NaN of a format (R47); FP4 and integers have none, and a NaN converts to 0 there (R50). -/
def NumFmt.nanCode : NumFmt → Nat
  | .fp32 => 0x7FC00000
  | .bf16 => 0x7FC0
  | .e4m3 => 0x7F
  | .e5m2 => 0x7F
  | _ => 0

/-- The format is one of the integers. -/
def NumFmt.isInt : NumFmt → Bool
  | .int8 => true
  | .int32 => true
  | _ => false

/-- An integer as a value. -/
def Num.ofInt (i : Int) : Num := .fin (decide (i < 0)) i.natAbs 0

/-- Two's complement of a w-bit code. -/
def signedOf (w code : Nat) : Int := if code ≥ 2 ^ (w - 1) then (code : Int) - 2 ^ w else code

/-- The value of a code (R42 to R45). -/
def decodeNum (f : NumFmt) (code : Nat) : Num :=
  if f.isInt then .ofInt (signedOf f.width (code % 2 ^ f.width))
  else
    let sgn := code.testBit (f.width - 1)
    let mag := code % 2 ^ (f.width - 1)
    let ex := mag / 2 ^ f.mbits
    let mant := mag % 2 ^ f.mbits
    let top := 2 ^ (f.width - 1 - f.mbits) - 1
    let val : Num :=
      if ex = 0 then .fin sgn mant (1 - (f.bias : Int) - f.mbits)
      else .fin sgn (2 ^ f.mbits + mant) ((ex : Int) - f.bias - f.mbits)
    match f with
    | .e4m3 => if mag = 0x7F then .nan else val
    | .fp4 => val
    | _ => if ex = top then (if mant = 0 then .inf sgn else .nan) else val

/-- m × 2^k rounded to an integer, to nearest with ties to even. -/
def rne (m : Nat) (k : Int) : Nat :=
  if 0 ≤ k then m * 2 ^ k.toNat
  else
    let s := (-k).toNat
    let q := m / 2 ^ s
    let r := m % 2 ^ s
    let half := 2 ^ (s - 1)
    if r > half ∨ (r = half ∧ q % 2 = 1) then q + 1 else q

/-- Exponent of the unit in the last place of a format at a value of leading exponent `top`. -/
def quantum (f : NumFmt) (top : Int) : Int :=
  let emin : Int := 1 - (f.bias : Int)
  (if top < emin then emin else top) - f.mbits

/-- Leading exponent of m × 2^e, for m above 0. -/
def leading (m : Nat) (e : Int) : Int := e + (Nat.log2 m : Int)

/-- Code without sign of m × 2^e rounded to nearest even, the exponent range unbounded above (R50). -/
def magCode (f : NumFmt) (m : Nat) (e : Int) : Nat :=
  if m = 0 then 0
  else
    let q := quantum f (leading m e)
    let emin : Int := 1 - (f.bias : Int)
    (q + f.mbits - emin).toNat * 2 ^ f.mbits + rne m (e - q)

/-- Puts the sign bit on a code. -/
def withSign (f : NumFmt) (neg : Bool) (mag : Nat) : Nat := if neg then mag + 2 ^ (f.width - 1) else mag

/-- The FP32 code of a value, rounded to nearest even; beyond the largest finite value it is ±∞ (R48, R50). -/
def toF32 : Num → W32
  | .nan => 0x7FC00000
  | .inf neg => BitVec.ofNat 32 (withSign .fp32 neg 0x7F800000)
  | .fin neg m e =>
    let c := magCode .fp32 m e
    BitVec.ofNat 32 (withSign .fp32 neg (if c > 0x7F7FFFFF then 0x7F800000 else c))

/-- The value of an FP32 code. -/
def ofF32 (w : W32) : Num := decodeNum .fp32 w.toNat

/-! ### Exact arithmetic (R48, R49) -/

def Num.isNan : Num → Bool
  | .nan => true
  | _ => false

def Num.isFinite : Num → Bool
  | .fin _ _ _ => true
  | _ => false

/-- The value is ±0. -/
def Num.isZero : Num → Bool
  | .fin _ 0 _ => true
  | _ => false

def Num.sign : Num → Bool
  | .nan => false
  | .inf n => n
  | .fin n _ _ => n

def Num.neg : Num → Num
  | .nan => .nan
  | .inf n => .inf (!n)
  | .fin n m e => .fin (!n) m e

def Num.abs : Num → Num
  | .nan => .nan
  | .inf _ => .inf false
  | .fin _ m e => .fin false m e

/-- A signed mantissa. -/
def signedM (neg : Bool) (m : Nat) : Int := if neg then -(m : Int) else m

/-- Exact sum; an exact zero of opposite signs is +0 (R49). -/
def Num.add : Num → Num → Num
  | .nan, _ => .nan
  | _, .nan => .nan
  | .inf a, .inf b => if a = b then .inf a else .nan
  | .inf a, _ => .inf a
  | _, .inf b => .inf b
  | .fin a m e, .fin b n f =>
    let g := min e f
    let x := signedM a (m * 2 ^ (e - g).toNat) + signedM b (n * 2 ^ (f - g).toNat)
    if x = 0 then .fin (a && b) 0 g else .fin (decide (x < 0)) x.natAbs g

/-- Exact product. -/
def Num.mul : Num → Num → Num
  | .nan, _ => .nan
  | _, .nan => .nan
  | .inf a, .inf b => .inf (a != b)
  | .inf a, .fin b n _ => if n = 0 then .nan else .inf (a != b)
  | .fin a m _, .inf b => if m = 0 then .nan else .inf (a != b)
  | .fin a m e, .fin b n f => .fin (a != b) (m * n) (e + f)

/-- Quotient with at least 80 significant bits and a sticky bit, so that one rounding of it is the rounding of the
exact quotient. -/
def Num.div : Num → Num → Num
  | .nan, _ => .nan
  | _, .nan => .nan
  | .inf _, .inf _ => .nan
  | .inf a, .fin b _ _ => .inf (a != b)
  | .fin a _ _, .inf b => .fin (a != b) 0 0
  | .fin a m e, .fin b n f =>
    if n = 0 then (if m = 0 then .nan else .inf (a != b))
    else
      let k := 80 + Nat.log2 n
      let q := m * 2 ^ k / n
      let st := if m * 2 ^ k % n = 0 then 0 else 1
      .fin (a != b) (2 * q + st) (e - f - k - 1)

/-- Integer square root by bits, from bit n down. -/
def isqrt : Nat → Nat → Nat → Nat
  | 0, _, r => r
  | n + 1, v, r => if (r + 2 ^ n) * (r + 2 ^ n) ≤ v then isqrt n v (r + 2 ^ n) else isqrt n v r

/-- Square root with at least 80 significant bits and a sticky bit. -/
def Num.sqrt : Num → Num
  | .nan => .nan
  | .inf neg => if neg then .nan else .inf false
  | .fin neg m e =>
    if m = 0 then .fin neg 0 e
    else if neg then .nan
    else
      let k : Nat := 160 + (if (e % 2 = 0) then 0 else 1)
      let v := m * 2 ^ k
      let r := isqrt (Nat.log2 v / 2 + 1) v 0
      let st := if r * r = v then 0 else 1
      .fin false (2 * r + st) ((e - k) / 2 - 1)

/-- Numeric comparison of values that are not NaN: a < b, with −0 below +0 where `zeros` is set (R69). -/
def Num.lt (zeros : Bool) : Num → Num → Bool
  | .nan, _ => false
  | _, .nan => false
  | .inf a, .inf b => a && !b
  | .inf a, .fin _ _ _ => a
  | .fin _ _ _, .inf b => !b
  | .fin a m e, .fin b n f =>
    let g := min e f
    let x := signedM a (m * 2 ^ (e - g).toNat)
    let y := signedM b (n * 2 ^ (f - g).toNat)
    decide (x < y) || (zeros && decide (x = 0 ∧ y = 0) && a && !b)

/-- Numeric equality, ±0 equal; NaN equals nothing. -/
def Num.eqv (a b : Num) : Bool := !a.isNan && !b.isNan && !(Num.lt false a b) && !(Num.lt false b a)

/-- Maximum and minimum of R69: NaN where either is NaN, +0 greater than −0. -/
def Num.max2 (a b : Num) : Num := if a.isNan || b.isNan then .nan else if Num.lt true a b then b else a
def Num.min2 (a b : Num) : Num := if a.isNan || b.isNan then .nan else if Num.lt true b a then b else a

/-- FP32 operations, each rounded to nearest even. -/
def add32 (a b : W32) : W32 := toF32 ((ofF32 a).add (ofF32 b))
def sub32 (a b : W32) : W32 := toF32 ((ofF32 a).add (ofF32 b).neg)
def mul32 (a b : W32) : W32 := toF32 ((ofF32 a).mul (ofF32 b))
def div32 (a b : W32) : W32 := toF32 ((ofF32 a).div (ofF32 b))
def sqrt32 (a : W32) : W32 := toF32 (ofF32 a).sqrt
def fma32 (a b c : W32) : W32 := toF32 (((ofF32 a).mul (ofF32 b)).add (ofF32 c))

/-- FP32 code of a format's code, widened exactly. -/
def widen (f : NumFmt) (code : Nat) : W32 := toF32 (decodeNum f code)

/-! ### Conversion (R50, R51) -/

/-- Status bits that a conversion or a row gives (R67). -/
structure Status where
  ovf : Bool
  nan : Bool
  sat : Bool
  void : Bool
  empty : Bool
deriving DecidableEq, Repr

def Status.none : Status := { ovf := false, nan := false, sat := false, void := false, empty := false }

def Status.or (a b : Status) : Status :=
  { ovf := a.ovf || b.ovf, nan := a.nan || b.nan, sat := a.sat || b.sat, void := a.void || b.void,
    empty := a.empty || b.empty }

/-- The row-status byte (R67). -/
def Status.byte (s : Status) : Byte :=
  BitVec.ofNat 8 (16 * b2n s.ovf + 8 * b2n s.nan + 4 * b2n s.sat + 2 * b2n s.void + b2n s.empty)

/-- Clamps an exact integer-valued rounding to a two's-complement width: code and whether it was out of range. -/
def clampInt (w : Nat) (neg : Bool) (mag : Nat) : Nat × Bool :=
  if neg then (if mag > 2 ^ (w - 1) then (2 ^ (w - 1), true) else ((2 ^ w - mag) % 2 ^ w, false))
  else (if mag ≥ 2 ^ (w - 1) then (2 ^ (w - 1) - 1, true) else (mag, false))

/-- Conversion of a value to a format: the code, and SAT and OVF (R50, R51). To FP32 it only rounds, and a NaN sets what it sets
in any conversion. NAN is set where the output is the canonical NaN (R67). -/
def convertNum (f : NumFmt) (gclass : Bool) (x : Num) : Nat × Status :=
  let satS : Status := { Status.none with sat := true, ovf := gclass }
  let ovfS : Status := { Status.none with ovf := gclass }
  match f with
  | .fp32 => ((toF32 x).toNat, if x.isNan then { satS with nan := true } else .none)
  | .int8 =>
    match x with
    | .nan => (0, satS)
    | .inf neg => (if neg then 0x80 else 0x7F, satS)
    | .fin neg m e => let (c, o) := clampInt 8 neg (rne m e); (c, if o then satS else .none)
  | .int32 =>
    match x with
    | .nan => (0, satS)
    | .inf neg => (if neg then 0x80000000 else 0x7FFFFFFF, satS)
    | .fin neg m e => let (c, o) := clampInt 32 neg (rne m e); (c, if o then satS else .none)
  | .bf16 =>
    match x with
    | .nan => (0x7FC0, { satS with nan := true })
    | .inf neg => (withSign .bf16 neg 0x7F80, ovfS)
    | .fin neg m e =>
      let c := magCode .bf16 m e
      if c > 0x7F7F then (withSign .bf16 neg 0x7F80, ovfS) else (withSign .bf16 neg c, .none)
  | .e4m3 =>
    match x with
    | .nan => (0x7F, { satS with nan := true })
    | .inf neg => (withSign .e4m3 neg 0x7E, satS)
    | .fin neg m e =>
      let c := magCode .e4m3 m e
      if c > 0x7E then (withSign .e4m3 neg 0x7E, satS) else (withSign .e4m3 neg c, .none)
  | .e5m2 =>
    match x with
    | .nan => (0x7F, { satS with nan := true })
    | .inf neg => (withSign .e5m2 neg 0x7C, ovfS)
    | .fin neg m e =>
      let c := magCode .e5m2 m e
      if c > 0x7B then (withSign .e5m2 neg 0x7B, satS) else (withSign .e5m2 neg c, .none)
  | .fp4 =>
    match x with
    | .nan => (0, satS)
    | .inf neg => (withSign .fp4 neg 0x7, satS)
    | .fin neg m e =>
      let c := magCode .fp4 m e
      if c > 0x7 then (withSign .fp4 neg 0x7, satS) else (withSign .fp4 neg c, .none)

/-! ### Stochastic rounding (R53 to R56) -/

/-- round_stochastic of R53 on an exact sum and a 24-bit draw. -/
def roundStochastic (s : Num) (u : Nat) : W32 :=
  match s with
  | .nan => 0x7FC00000
  | .inf neg => BitVec.ofNat 32 (withSign .fp32 neg 0x7F800000)
  | .fin neg m e =>
    if m = 0 then BitVec.ofNat 32 (withSign .fp32 neg 0)
    else
      let q := quantum .fp32 (leading m e)
      let emin : Int := -126
      let base := (q + 23 - emin).toNat * 2 ^ 23
      let c :=
        if q ≤ e then base + m * 2 ^ (e - q).toNat
        else
          let k := (q - e).toNat
          let n := m / 2 ^ k
          let r := m % 2 ^ k
          if r = 0 then base + n
          else if u < r * 2 ^ 24 / 2 ^ k then base + n + 1 else base + n
      BitVec.ofNat 32 (withSign .fp32 neg (if c > 0x7F7FFFFF then 0x7F800000 else c))

/-- One round of Philox4x32 on counter words and keys. -/
def philoxRound (c : Nat × Nat × Nat × Nat) (k0 k1 : Nat) : Nat × Nat × Nat × Nat :=
  let p0 := 0xD2511F53 * c.1
  let p1 := 0xCD9E8D57 * c.2.2.1
  ((p1 / 2 ^ 32) ^^^ c.2.1 ^^^ k0, p1 % 2 ^ 32, (p0 / 2 ^ 32) ^^^ c.2.2.2 ^^^ k1, p0 % 2 ^ 32)

/-- n rounds of Philox4x32, the keys raised by their Weyl constants between rounds. -/
def philoxRounds : Nat → Nat × Nat × Nat × Nat → Nat → Nat → Nat × Nat × Nat × Nat
  | 0, c, _, _ => c
  | n + 1, c, k0, k1 =>
    philoxRounds n (philoxRound c k0 k1) ((k0 + 0x9E3779B9) % 2 ^ 32) ((k1 + 0xBB67AE85) % 2 ^ 32)

/-- Philox4x32-10: word w of the block of key (k0, k1) and a 128-bit counter (R54). -/
def philoxWord (k0 k1 counter w : Nat) : Nat :=
  let c := (counter % 2 ^ 32, counter / 2 ^ 32 % 2 ^ 32, counter / 2 ^ 64 % 2 ^ 32, counter / 2 ^ 96 % 2 ^ 32)
  let r := philoxRounds 10 c k0 k1
  if w = 0 then r.1 else if w = 1 then r.2.1 else if w = 2 then r.2.2.1 else r.2.2.2

/-- A 24-bit draw of index `draw` under a tile number and step (R55, R56). -/
def drawBits (seed core tile step draw : Nat) : Nat :=
  philoxWord ((seed % 2 ^ 32) ^^^ core) (seed / 2 ^ 32 % 2 ^ 32)
    (draw / 4 % 2 ^ 32 + tile % 2 ^ 32 * 2 ^ 32 + step % 2 ^ 64 * 2 ^ 64) (draw % 4) / 256

/-! ### Rows with a scale factor (R230) -/

/-- encode_row of R230: codes and row factor of 256 FP32 values, in E4M3 (fmt_max 448) or E5M2 (57,344). -/
def encodeRow (f : NumFmt) (xs : List W32) : List Nat × W32 :=
  let vals := xs.map ofF32
  let amax := vals.foldl (fun a v => if v.isNan then a else if Num.lt false a v.abs then v.abs else a) (.fin false 0 0)
  let fmtMax : Num := if f = .e5m2 then .fin false 57344 0 else .fin false 448 0
  let e : W32 := if amax.isZero || !amax.isFinite then 0x3F800000 else toF32 (fmtMax.div amax)
  (vals.map fun v => (convertNum f false (v.mul (ofF32 e))).1, e)

/-- decode of R230. -/
def decodeRow (f : NumFmt) (code : Nat) (e : W32) : W32 := toF32 ((decodeNum f code).div (ofF32 e))

end Sys2Proof.Machine
end

