-- ==== Sys2Proof/Machine/Operands.lean ====
section
/-!
DEFINITION. The operands of a core (R71 to R88): bundle and slot fields, registers with their values after a reset
(R72), results in flight and their landing (R102, R142), the ports of the operand cache (R99), and what a broken timing
rule leaves (R103).
-/
namespace Sys2Proof.Machine

/-! ### Bundle and slots -/

/-- First bit and width of slot n: ma0 to ma3, ve0, ve1, ld, ctl (R74). -/
def slotBase (slot : Nat) : Nat := if slot < 7 then 64 + 128 * slot else 928
def slotWidth (slot : Nat) : Nat := if slot < 6 then 128 else 96

/-- The bits of a slot, counted from its bit 0. -/
def slotWord (raw : BitVec 1024) (slot : Nat) : Nat := raw.toNat >>> slotBase slot % 2 ^ slotWidth slot

/-- Header fields (R75). -/
def header (raw : BitVec 1024) : Nat := raw.toNat % 2 ^ 64
def repeatOf (raw : BitVec 1024) : Nat := bits (header raw) 15 4
def slotEnabled (raw : BitVec 1024) (slot : Nat) : Bool := bit (header raw) (16 + slot)
def waitToken (raw : BitVec 1024) : Nat := bits (header raw) 29 24
def waitCount (raw : BitVec 1024) : Nat := bits (header raw) 47 32
def waitCause (raw : BitVec 1024) : Nat := bits (header raw) 51 48
def bpredOf (raw : BitVec 1024) : Nat := bits (header raw) 55 52

/-- The opcode of a slot and its predicate register: bits [7:0] and [11:8] of every slot. -/
def opOf (w : Nat) : Nat := bits w 7 0
def predOf (w : Nat) : Nat := bits w 11 8

/-- Two's complement of a w-bit field. -/
def sext (w v : Nat) : Int := signedOf w v

/-! ### Registers (R71, R72) -/

/-- Classes of `Config.unspecReg`: 0 S, 1 X, 2 P, 3 row-hold operand, 4 accumulator value, 5 chain record byte, 6 feed register,
7 token counter after the test step. -/
def unspecOf (x : Core) (c cls n : Nat) : BitVec 512 := if x.rf.gen = 0 then 0 else Config.unspecReg x.rf.gen c cls n

/-- A byte of the V registers, addressed from V0 on and wrapping (R81). -/
def vDefault (x : Core) (c a : Nat) : Byte := if x.rf.gen = 0 then 0 else Config.unspecV x.rf.gen c a
def readV (x : Core) (c a : Nat) : Byte := (cellFind x.rf.v (a % 0x40000)).getD (vDefault x c (a % 0x40000))
def readVs (x : Core) (c a n : Nat) : List Byte := (List.range n).map fun i => readV x c (a + i)
def writeV (x : Core) (c a : Nat) (v mask : Byte) : Core :=
  let a := a % 0x40000
  let old := readV x c a
  { x with rf := { x.rf with v := cellPut (vDefault x c a) x.rf.v a ((old &&& ~~~ mask) ||| (v &&& mask)) } }
def writeVs (x : Core) (c a : Nat) : List (Byte × Byte) → Core
  | [] => x
  | (v, m) :: r => writeVs (writeV x c a v m) c (a + 1) r

/-- A V register as 512 bytes. -/
def vreg (x : Core) (c r : Nat) : List Byte := readVs x c (512 * r) 512

/-- FP32 word i of a V register. -/
def vword (x : Core) (c r i : Nat) : W32 := BitVec.ofNat 32 (leNat (readVs x c (512 * r + 4 * i) 4))

/-- S0 reads 0, P0 all ones; writes to them are ignored (R72). -/
def readS (x : Core) (c n : Nat) : W64 := if n = 0 then 0 else (tfind x.rf.s n).getD ((unspecOf x c 0 n).setWidth 64)
def readX (x : Core) (c n : Nat) : W32 := (tfind x.rf.x n).getD ((unspecOf x c 1 n).setWidth 32)
def readP (x : Core) (c n : Nat) : BitVec 512 :=
  if n = 0 then BitVec.allOnes 512 else (tfind x.rf.p n).getD (unspecOf x c 2 n)
def readT (x : Core) (n : Nat) : Nat := tget 0 x.rf.t n
def writeS (x : Core) (n : Nat) (v : W64) : Core :=
  if n = 0 then x else { x with rf := { x.rf with s := tput x.rf.s n v } }
def writeX (x : Core) (n : Nat) (v : W32) : Core := { x with rf := { x.rf with x := tput x.rf.x n v } }
def writeP (x : Core) (c n : Nat) (v mask : BitVec 512) : Core :=
  if n = 0 then x
  else { x with rf := { x.rf with p := tput x.rf.p n ((readP x c n &&& ~~~ mask) ||| (v &&& mask)) } }
def writeT (x : Core) (n v : Nat) : Core := { x with rf := { x.rf with t := tput x.rf.t n v } }

/-- Free bits of a ticket as a number of n bytes. -/
def freeNat (ticket n : Nat) : Nat := leNat (freeBytes ticket n)

/-- An array of a core, and one of its accumulator entries; an entry not listed holds its value at reset or a free
one (R115). DESIGN CHOICE (log 75): spec/ names no class for an entry that nothing has written since a full reset or a
reset of COMPUTE; it is of the sum class here. -/
def Core.array (x : Core) (a : Nat) : Arr := tget .reset x.arrays a
def Core.modArray (x : Core) (a : Nat) (f : Arr → Arr) : Core := { x with arrays := tmod .reset x.arrays a f }
def entryOf (x : Core) (c a e : Nat) : AccEntry :=
  (tfind (x.array a).acc e).getD
    { vals := (List.range 32).map fun j => (unspecOf x c 4 ((64 * a + e) * 32 + j)).setWidth 32
      cls := 0, empty := false, ready := 0, src := 0 }
def putEntry (x : Core) (a e : Nat) (v : AccEntry) : Core := x.modArray a fun r => { r with acc := tput r.acc e v }

/-! ### Destinations of a slot (R88, R103) -/

/-- A register that a slot names as a destination. -/
inductive Dst where
  | v (r : Nat)
  | s (n : Nat)
  | x (n : Nat)
  | p (n : Nat)
  | t (n : Nat)
  | feed
  | tile
  | kq
deriving DecidableEq, Repr

/-- Accumulating ops of a matrix slot. -/
def isAccumulating (op : Nat) : Bool := decide (0x10 ≤ op ∧ op ≤ 0x16)

/-- Vector ops by where their result goes: P(VD), V(VD), or neither. -/
def veToP (op : Nat) : Bool := decide ((0x20 ≤ op ∧ op ≤ 0x23) ∨ (0x25 ≤ op ∧ op ≤ 0x2B))
def veToS (op : Nat) : Bool :=
  decide (op = 0x31 ∨ op = 0x32 ∨ (0x40 ≤ op ∧ op ≤ 0x46) ∨ (0x50 ≤ op ∧ op ≤ 0x53) ∨ op = 0x61 ∨ op = 0x62 ∨ op = 0x72 ∨ op = 0x77)
def veToV (op : Nat) : Bool :=
  decide ((1 ≤ op ∧ op ≤ 0x1C) ∨ op = 0x24 ∨ op = 0x30 ∨ op = 0x31 ∨ (0x50 ≤ op ∧ op ≤ 0x53) ∨ op = 0x60 ∨ op = 0x61 ∨ op = 0x63 ∨
    op = 0x70 ∨ op = 0x71 ∨ (0x73 ≤ op ∧ op ≤ 0x77))

/-- The destination registers that a slot names. -/
def slotDsts (slot w : Nat) : List Dst :=
  let op := opOf w
  let opt (b : Bool) (d : Dst) : List Dst := if b then [d] else []
  if slot < 4 then
    if op = 0x20 ∧ bit w 77 = false then
      Dst.v (bits w 53 45) :: (opt (bit w 54) (.v (bits w 63 55)) ++ opt (bit w 64) (.v (bits w 73 65)))
    else []
  else if slot < 6 then
    opt (veToV op) (.v (bits w 21 13)) ++ opt (veToP op) (.p (bits w 16 13)) ++ opt (veToS op) (.s (bits w 60 55)) ++
    opt (op == 0x61 || op == 0x62) (.s (bits w 60 55 + 1)) ++ opt (op != 0 && bit w 62) (.v (bits w 71 63))
  else if slot = 6 then
    opt (op == 1) (.v (bits w 25 17)) ++ opt (op == 3) (.s (bits w 63 58)) ++ opt (op == 5) (.p (bits w 20 17)) ++
    opt (op == 7 || op == 8) .feed ++ opt (bits w 57 42 != 0) (.x (bits w 16 12))
  else
    opt (decide ((8 ≤ op ∧ op ≤ 0x13) ∨ op = 0x22 ∨ op = 0x31 ∨ op = 0x3A)) (.s (bits w 17 12)) ++
    opt (decide (0x18 ≤ op ∧ op ≤ 0x1A)) (.p (bits w 70 67)) ++ opt (op == 0x20 || op == 0x21) (.x (bits w 66 62)) ++
    opt (op == 0x28) .tile ++ opt (op == 0x28 || op == 0x29) .kq ++ opt (op == 0x32) (.t (bits w 61 30 % 64))

/-- What a DRAIN slot names, by role: 0 VD, 1 VSTAT, 2 VAMAX. -/
def drainRoles (w : Nat) : List (Nat × Nat) :=
  if bit w 77 then []
  else (0, bits w 53 45) :: ((if bit w 54 then [(1, bits w 63 55)] else []) ++ (if bit w 64 then [(2, bits w 73 65)] else []))

/-- Two slots name one destination. DRAINs of several arrays may share a VD, and each of the registers for row status and
maxima, which R81 merges; a register in two roles clashes (R88). -/
def dstClash (raw : BitVec 1024) : Bool :=
  let on := (List.range 8).filter (slotEnabled raw)
  on.any fun i => on.any fun j =>
    let u := slotWord raw i
    let w := slotWord raw j
    decide (i < j) &&
    (if j < 4 ∧ opOf u = 0x20 ∧ opOf w = 0x20 then
      (drainRoles u).any fun d => (drainRoles w).any fun e => d.2 == e.2 && d.1 != e.1
    else (slotDsts i u).any fun d => (slotDsts j w).contains d)

/-- Element width in half bytes of a format code (R76). -/
def halves (fmt : Nat) : Nat := if fmt = 0 ∨ fmt = 6 then 8 else if fmt = 1 then 4 else if fmt = 4 then 1 else 2

/-- Fields of epilogue set n of a core (R127). -/
def epiCtl (x : Core) (n : Nat) : Nat := (tget 0 x.epi (4 * n)).toNat
def epiVreg (x : Core) (n : Nat) : Nat := (tget 0 x.epi (4 * n + 1)).toNat
def epiQs (x : Core) (n : Nat) : Nat := (tget 0 x.epi (4 * n + 2)).toNat
def epiOpnd (x : Core) (n : Nat) : Nat := (tget 0 x.epi (4 * n + 3)).toNat

/-- Bytes from V(VD) on that the DRAINs of a bundle write: 128 × w for each repeat. -/
def drainBytes (x : Core) (w reps : Nat) : Nat := reps * 64 * halves (bits (epiCtl x (bits w 76 74)) 3 1)

/-- All the registers that a bundle writes over its repeats. -/
def bundleDsts (x : Core) (raw : BitVec 1024) : List Dst :=
  let reps := repeatOf raw + 1
  (List.range 8).flatMap fun i =>
    let w := slotWord raw i
    if !slotEnabled raw i then []
    else
      let span : List Dst :=
        if i < 4 ∧ opOf w = 0x20 ∧ bit w 77 = false then
          (List.range ((drainBytes x w reps + 511) / 512)).map fun k => .v ((bits w 53 45 + k) % 512)
        else if i = 6 ∧ opOf w = 1 ∧ bit w 67 = true then (List.range reps).map fun k => .v ((bits w 25 17 + k) % 512)
        else if i = 6 ∧ opOf w = 5 ∧ bit w 67 = true then (List.range reps).map fun k => .p ((bits w 20 17 + k) % 16)
        else []
      slotDsts i w ++ span

/-- Cycles between slices: c of R79. -/
def sliceCycles (op fmt : Nat) : Nat :=
  if op = 0x10 ∨ op = 0x12 then (if fmt = 0 then 8 else if fmt = 1 then 2 else 1) else 1

/-- The accumulator entries that a bundle combines into or initialises in its acting repeats: array, entry (R79, R116). -/
def bundleEntries (raw : BitVec 1024) : List (Nat × Nat) :=
  let reps := repeatOf raw + 1
  (List.range 4).flatMap fun a =>
    let w := slotWord raw a
    let op := opOf w
    if slotEnabled raw a ∧ (isAccumulating op = true ∨ op = 0x21) then
      let acting := if op = 0x21 then reps else (reps - 1) / sliceCycles op (bits w 21 19) + 1
      let n := if bit w 18 then Nat.min acting 64 else 1
      (List.range n).flatMap fun k =>
        let e := (bits w 17 12 + k) % 64
        if bits w 21 19 = 4 ∧ op ≠ 0x21 then [(a, e), (a, (e + 32) % 64)] else [(a, e)]
    else []

/-- Parts of a tile and rows of a part in a format (R80, R111). -/
def partCount (fmt : Nat) : Nat := if fmt = 4 then 2 else if fmt = 1 then 8 else if fmt = 0 then 16 else 4
def partRows (fmt : Nat) : Nat := 64 / partCount fmt

/-- The weight parts that a bundle loads: array, part (R80). -/
def bundleParts (raw : BitVec 1024) : List (Nat × Nat) :=
  (List.range 4).flatMap fun a =>
    let w := slotWord raw a
    if slotEnabled raw a && bit w 31 then
      ((List.range (Nat.min 16 (repeatOf raw + 1))).map fun k => (a, bits w 44 41 + k)).filter fun q => q.2 < partCount (bits w 24 22)
    else []

/-! ### Broken timing rules (R103) -/

/-- Gives a register a free value. -/
def spoilDst (s : State) (c : Nat) (d : Dst) : State :=
  let t := s.fresh
  let x := s.core c
  let x' := match d with
    | .v r => writeVs x c (512 * (r % 512)) ((freeBytes t 512).map fun b => (b, 0xFF))
    | .s n => writeS x (n % 64) (BitVec.ofNat 64 (freeNat t 8))
    | .x n => writeX x n (BitVec.ofNat 32 (freeNat t 4))
    | .p n => writeP x c n (BitVec.ofNat 512 (freeNat t 64)) (BitVec.allOnes 512)
    | .t n => writeT x n (freeNat t 2)
    | .feed => { x with feed := freeBytes t x.feed.length }
    | .tile => { x with tile := freeNat t 4 % 2 ^ 31 }
    | .kq => { x with kq := freeNat t 4 % 2 ^ 19 }
  (s.setCore c x').ticket

/-- Gives an accumulator entry free values; its class, EMPTY and the cycle from which a DRAIN may read it stay. -/
def spoilEntry (s : State) (c : Nat) (ae : Nat × Nat) : State :=
  let t := s.fresh
  let x := s.core c
  let e := entryOf x c ae.1 ae.2
  let vals := (List.range 32).map fun j => BitVec.ofNat 32 (leNat (((freeBytes t 128).drop (4 * j)).take 4))
  (s.setCore c (putEntry x ae.1 ae.2 { e with vals := vals })).ticket

/-- Gives a weight part that bundle `id` has loaded free values (R143). -/
def spoilPart (s : State) (c id : Nat) (q : Nat × Nat) : State :=
  let free (t : Tile) : Tile := if t.src = id then { t with parts := tput t.parts q.2 (freeBytes s.fresh 512) } else t
  (s.modCore c fun x => x.modArray q.1 fun r => { r with active := free r.active, standby := free r.standby }).ticket

/-- The first byte of the cache lines that hold [a, a + n), and their bytes. -/
def lineSpan (a n : Nat) : Nat × Nat := (a / 64 * 64, (a + n + 63) / 64 * 64 - a / 64 * 64)

/-- What a result in flight comes to where its bundle has broken a timing rule: registers of R71 take their free values at
once; cache lines, whole, the feed register, TILE and KQ when it lands. -/
def Payload.freed (t : Nat) : Payload → List Payload
  | .cache a bs => [.cache (lineSpan a bs.length).1 (freeBytes t (lineSpan a bs.length).2)]
  | .feed bs => [.feed (freeBytes t bs.length)]
  | .tile _ => [.tile (freeNat t 4 % 2 ^ 31), .kq (freeNat (t + 1) 4 % 2 ^ 19)]
  | .kq _ => [.kq (freeNat t 4 % 2 ^ 19)]
  | .vreg _ _ => []
  | .sreg _ _ _ => []
  | .xreg _ _ => []
  | .preg _ _ _ => []

/-- The results in flight of bundle `id`, freed; each takes two tickets from t on. -/
def freeFlight (id : Nat) : List InFlight → Nat → List InFlight
  | [], _ => []
  | f :: r, t =>
    (if f.bundle = id then (f.payload.freed t).map fun p => { f with payload := p } else [f]) ++ freeFlight id r (t + 2)

/-- The register that INC of a bundle moves on. -/
def incDst (raw : BitVec 1024) : List Dst :=
  if slotEnabled raw 6 && bits (slotWord raw 6) 57 42 != 0 then [.x (bits (slotWord raw 6) 16 12)] else []

/-- The registers, cache lines, accumulator entries and weight parts that bundle `id` names as destinations take free values
(R103, R143). A bundle in progress still addresses by X(XA), which takes its free value when the bundle ends. -/
def spoilBundle (s : State) (c id : Nat) (raw : BitVec 1024) : State :=
  let x := s.core c
  let live := x.bun.isSome && id == x.issued
  let s := { s.setCore c { x with flight := freeFlight id x.flight s.fresh } with fresh := s.fresh + 2 * x.flight.length }
  let s := forEach ((bundleDsts x raw).filter fun d => !(live && (incDst raw).contains d)) (fun s d => spoilDst s c d) s
  let s := forEach (bundleEntries raw) (fun s e => spoilEntry s c e) s
  let s := forEach (bundleParts raw) (fun s q => spoilPart s c id q) s
  forEach (x.stores.filter fun r => r.bundle == id)
    (fun s r => let l := lineSpan r.addr r.old.length
      (writeBytes s (cacheAddr c l.1) (freeBytes s.fresh l.2)).ticket) s

/-- The bundle in progress has broken a timing rule. -/
def Core.spoiled (x : Core) : Bool := match x.bun with | some b => b.spoiled | none => false

/-- Marks the bundle in progress, and the bundles whose results it takes too soon, as having broken a timing rule. -/
def spoil (s : State) (c : Nat) (ids : List Nat) : State :=
  if ids.isEmpty then s
  else
    let x := s.core c
    let s := forEach (x.past.filter fun p => ids.contains p.1) (fun s p => spoilBundle s c p.1 p.2.2) s
    match x.bun with
    | none => s
    | some b => (spoilBundle s c x.issued b.raw).modCore c fun x => { x with bun := some { b with spoiled := true } }

/-- Bundles with a result in flight that an access takes. Results of this same cycle are not seen and break nothing (R142). -/
def hazard (x : Core) (hit : Payload → Bool) : List Nat :=
  (x.flight.filter fun f => (f.bundle != x.issued || decide (f.sent < x.cyc)) && hit f.payload).map (·.bundle)

/-- Ranges [a, a+n) and [b, b+m) meet, on a circle of the given size. -/
def overlaps (size a n b m : Nat) : Bool :=
  decide (n ≠ 0 ∧ m ≠ 0 ∧ ((b + size - a % size) % size < n ∨ (a + size - b % size) % size < m))

def hazV (x : Core) (a n : Nat) : List Nat :=
  hazard x fun p => match p with | .vreg b bs => overlaps 0x40000 a n b bs.length | _ => false
def hazS (x : Core) (n : Nat) : List Nat := hazard x fun p => match p with | .sreg m _ _ => m == n && n != 0 | _ => false
def hazX (x : Core) (n : Nat) : List Nat := hazard x fun p => match p with | .xreg m _ => m == n | _ => false
def hazP (x : Core) (n : Nat) : List Nat :=
  hazard x fun p => match p with | .preg m _ _ => m == n && n != 0 | _ => false
def hazCache (x : Core) (a n : Nat) : List Nat :=
  hazard x fun p => match p with | .cache b bs => overlaps 0x200000 a n b bs.length | _ => false

/-! ### Landing of results (R102, R142) -/

/-- The write of another port to a byte of a cache in the present cycle: of the core's own port where `own` is set, else of
the engine port (R99, log 74). -/
def sameCycle (s : State) (c off : Nat) (own : Bool) : Option StoreRec :=
  let x := s.core c
  if x.bun.isNone then none
  else x.stores.find? fun r =>
    r.tick == s.now && r.mid && r.land == x.cyc && (r.bundle != 0) == own && overlaps 0x200000 off 1 r.addr r.old.length

/-- The byte that a write has replaced. -/
def StoreRec.before (r : StoreRec) (off : Nat) : Byte := r.old.getD ((off + 0x200000 - r.addr % 0x200000) % 0x200000) 0

/-- A byte of a cache as a port reads it: where another port writes it in the same cycle, the byte before the write or the
byte written, and which one is free (R99). -/
def portByte (s : State) (c off : Nat) (own : Bool) : Byte :=
  match sameCycle s c off own with
  | some r =>
    if (Config.freeByte s.fresh (0x200000 * ((s.core c).cyc + 1) + off)).getLsbD 0 then r.before off else readByte s (cacheAddr c off)
  | none => readByte s (cacheAddr c off)

/-- Bytes as the engine port reads them. -/
def portRead (s : State) (pa n : Nat) : List Byte :=
  (List.range n).map fun i =>
    match placeOf (pa + i) with
    | .cache c off => portByte s c off true
    | _ => readByte s (pa + i)

/-- Bytes of a line that a store of the core has written in the same cycle stay or are written, and which of the two is free for
the line (R99). -/
def portKeeps (s : State) (c off : Nat) : Bool :=
  ((List.range 64).any fun k => (sameCycle s c (off / 64 * 64 + k) true).isSome) &&
  (Config.freeByte s.fresh (0x40000000 + off / 64)).getLsbD 0

/-- Writes bytes through the engine port; a cache of a core of the run remembers what they replace (R99, R101). -/
def portWrite (s : State) (pa : Nat) (bytes : List Byte) : State :=
  match placeOf pa with
  | .cache c off =>
    let x := s.core c
    if x.active && !x.ended then
      let old := readBytes s pa bytes.length
      let new := (List.range bytes.length).map fun i => if portKeeps s c (off + i) then old.getD i 0 else bytes.getD i 0
      let r : StoreRec := { bundle := 0, land := x.cyc, addr := off, old := old, tick := s.now, mid := x.bun.isSome }
      (writeBytes s pa new).modCore c fun x =>
        { x with stores := (x.stores.filter fun q => q.bundle != 0 || decide (x.cyc < q.land + 4)) ++ [r] }
    else writeBytes s pa bytes
  | _ => writeBytes s pa bytes

/-- The operand cache as the ld port reads it; it wraps at its end (R85). -/
def cacheBytes (s : State) (c a n : Nat) : List Byte := (List.range n).map fun i => portByte s c ((a + i) % 0x200000) false
def writeCache (s : State) (c a : Nat) : List Byte → State
  | [] => s
  | b :: bs => writeCache (writeByte s (cacheAddr c a) b) c (a + 1) bs

/-- A result reaches its destination. -/
def landOne (s : State) (c : Nat) (f : InFlight) : State :=
  let x := s.core c
  match f.payload with
  | .vreg a bs => s.setCore c (writeVs x c a bs)
  | .sreg n v m => s.setCore c (writeS x n ((readS x c n &&& ~~~ m) ||| (v &&& m)))
  | .xreg n v => s.setCore c (writeX x n v)
  | .preg n v m => s.setCore c (writeP x c n v m)
  | .feed bs => s.setCore c { x with feed := bs ++ x.feed.drop bs.length, feedLen := bs.length }
  | .cache a bs =>
    let old := (List.range bs.length).map fun i => readByte s (cacheAddr c (a + i))
    (writeCache s c a bs).modCore c fun x =>
      { x with stores := x.stores ++ [{ bundle := f.bundle, land := f.land, addr := a, old := old, tick := s.now, mid := true }] }
  | .tile v => s.setCore c { x with tile := v, kq := 0 }
  | .kq v => s.setCore c { x with kq := v }

/-- The results that land in one cycle; more than eight register-file writes break a timing rule (R102). -/
def landAt (c t : Nat) (s : State) : State :=
  let x := s.core c
  let due := x.flight.filter fun f => f.land == t
  if due.isEmpty then s
  else
    let s := s.setCore c { x with flight := x.flight.filter fun f => f.land != t }
    if (due.map (·.weight)).sum > 8 then
      let ids := due.map (·.bundle)
      let s := forEach (x.past.filter fun p => ids.contains p.1) (fun s p => spoilBundle s c p.1 p.2.2) s
      match x.bun with
      | some b =>
        if ids.contains x.issued then
          (spoilBundle s c x.issued b.raw).modCore c fun x => { x with bun := some { b with spoiled := true } }
        else s
      | none => s
    else forEach due (fun s f => landOne s c f) s

/-- Issue moves on by n cycles. -/
def advance (c : Nat) : Nat → State → State
  | 0, s => s
  | n + 1, s =>
    let t := (s.core c).cyc + 1
    advance c n (landAt c t (s.modCore c fun x => { x with cyc := t }))

/-- Issue stops until the results of the given kind have landed. -/
def drainFlight (c : Nat) (which : InFlight → Bool) (s : State) : State :=
  let x := s.core c
  let last := (x.flight.filter which).foldl (fun m f => Nat.max m f.land) x.cyc
  advance c (last - x.cyc) s

/-- The last cycle in which a result of the core is written: results in flight, accumulator entries, weight parts (R80, R102). -/
def lastWrite (x : Core) : Nat :=
  let entries := x.arrays.flatMap fun a => a.2.active.ready :: a.2.standby.ready :: a.2.acc.map fun e => e.2.ready
  Nat.max ((x.flight.map (·.land)).foldl Nat.max x.cyc) (entries.foldl Nat.max 0)

/-- Issue stops until every result has been written (R87, R107, R108). -/
def settle (c : Nat) (s : State) : State :=
  let x := s.core c
  advance c (lastWrite x - x.cyc) s

/-- Every core without a bundle in progress completes its results (R107, R108). -/
def settleAll (s : State) : State :=
  forEach (s.cores.map (·.1)) (fun s c => if (s.core c).bun.isSome then s else settle c s) s

/-- Cycles for which past bundles and stores are kept: no latency of R102 is longer. -/
def keepCycles : Nat := 96

def prune (x : Core) : Core :=
  { x with
    past := x.past.filter fun p => decide (x.cyc ≤ p.2.1 + keepCycles)
    stores := x.stores.filter fun r => decide (x.cyc ≤ r.land + keepCycles) }

/-- Sends a result on its way. A spoiled bundle's results are free (R103). -/
def launch (s : State) (c lat weight : Nat) (p : Payload) : State :=
  let x := s.core c
  let f : InFlight := { bundle := x.issued, sent := x.cyc, land := x.cyc + lat, weight := weight, payload := p }
  if x.spoiled then
    (s.setCore c { x with flight := x.flight ++ (p.freed s.fresh).map fun q => { f with payload := q } }).ticket.ticket
  else s.setCore c { x with flight := x.flight ++ [f] }

end Sys2Proof.Machine
end

