-- ==== Sys2Proof/Machine/UpdateOps.lean ====
section
/-!
DEFINITION. Where the update unit's state lies (R225), working copies (R238) and shard digests (R239).
-/
namespace Sys2Proof.Machine

/-- Parameters of a tensor. -/
def TensorDesc.n (t : TensorDesc) : Nat := 256 * t.rows

/-- First address of a tensor's state region. -/
def stateBase (stack : Nat) (t : TensorDesc) : Nat := denseAddr stack t.state

/-- Addresses of the masters in a bank (false: A), of m, r, the anchor, u, and of the factors of a row (R225). -/
def masterAddr (stack : Nat) (t : TensorDesc) (bank : Bool) (i : Nat) : Nat :=
  stateBase stack t + (if bank then 4 * t.n else 0) + 4 * i
def mAddr (stack : Nat) (t : TensorDesc) (i : Nat) : Nat := stateBase stack t + 8 * t.n + i
def rAddr (stack : Nat) (t : TensorDesc) (i : Nat) : Nat := stateBase stack t + 9 * t.n + i
def anchorAddr (stack : Nat) (t : TensorDesc) (i : Nat) : Nat := stateBase stack t + 10 * t.n + 4 * i
def uAddr (stack : Nat) (t : TensorDesc) (i : Nat) : Nat := stateBase stack t + 14 * t.n + i
def factorAddr (stack : Nat) (t : TensorDesc) (row k : Nat) : Nat := stateBase stack t + 15 * t.n + 12 * row + 4 * k

/-- An FP32 word, read and written. -/
def readW (s : State) (pa : Nat) : W32 := BitVec.ofNat 32 (readLe s pa 4)
def writeW (s : State) (pa : Nat) (v : W32) : State := writeBytes s pa (leBytes 4 v.toNat)

/-- FP32 words in a row. -/
def readWs (s : State) (pa n : Nat) : List W32 := (List.range n).map fun i => readW s (pa + 4 * i)

/-- Format of narrow state and working copies by its code of R76. -/
def fmtOf (code : Nat) : NumFmt := (NumFmt.ofCode code).getD .fp32

/-- Writes the working copy of one row from its 256 masters (R238). -/
def writeWorkRow (s : State) (t : TensorDesc) (row : Nat) (w : List W32) : State :=
  if t.wfmt = 1 then
    writeBytes s (t.work + 512 * row) (w.flatMap fun x => leBytes 2 (convertNum .bf16 false (ofF32 x)).1)
  else
    let (codes, e) := encodeRow (fmtOf t.wfmt) w
    writeW (writeBytes s (t.work + 256 * row) (codes.map fun c => BitVec.ofNat 8 c)) (t.wscale + 4 * row) e

/-- Rederives the working copy of rows from a bank. -/
def rederiveRows (s : State) (stack : Nat) (t : TensorDesc) (bank : Bool) (first count : Nat) : State :=
  forEach (List.range count)
    (fun s k => writeWorkRow s t (first + k) (readWs s (masterAddr stack t bank (256 * (first + k))) 256)) s

/-- Rederives every working copy of a stack from a bank. -/
def rederiveStack (s : State) (stack : Nat) (prog : List TensorDesc) (bank : Bool) : State :=
  forEach prog (fun s t => rederiveRows s stack t bank 0 t.rows) s

/-- The shard numbers of an update program, in list order, each once. -/
def shardsOf (prog : List TensorDesc) : List Nat :=
  prog.foldl (fun l t => if l.contains t.shard then l else l ++ [t.shard]) []

/-- SHA3-256 of the masters of a shard in a bank (R239). -/
def shardDigest (s : State) (stack : Nat) (prog : List TensorDesc) (bank : Bool) (shard : Nat) : List Byte :=
  sha3 ((prog.filter fun t => t.shard == shard).flatMap fun t => readBytes s (masterAddr stack t bank 0) (4 * t.n))

/-- The update program of a stack under the committed plan. -/
def programOf (s : State) (stack : Nat) : List TensorDesc :=
  match s.run.plan with
  | some p => p.update.getD stack []
  | none => []

/-- The committed bank's masters: true where the last commit made bank B the committed one. -/
def bankOf (s : State) (stack : Nat) : Bool := (s.unit stack).bank

end Sys2Proof.Machine
end

