-- ==== Sys2Proof/Machine/Run.lean ====
section
/-!
DEFINITION. The life of a run: who may issue, taints (R303, R243), the end of a run (R107, R244, R305), plan faults,
the release of a plan (R258), and the entry to NEEDS_REPAIR (R419).
-/
namespace Sys2Proof.Machine

/-! ### Who runs -/

/-- A run is in progress: RUNNING, or QUIESCED from it. -/
def runInProgress (s : State) : Bool :=
  s.glb.state == .running || (s.glb.state == .quiesced && s.glb.prior == some .running)

/-- The compute clock of a brick runs: its PLL is locked (R485). -/
def brickClocked (s : State) (b : Nat) : Bool := !s.pwr.unlocked.contains (.compute, b)

/-- A brick issues: it is clocked, and neither a thermal hold nor a dip is on (R476, R480). -/
def brickRuns (s : State) (b : Nat) : Bool := brickClocked s b && !s.pwr.dip && !s.pwr.holdBrick.getLsbD b

/-- A core issues where the run goes on and its brick issues; a bundle in progress it ends, whatever holds it from the next one
(R107, R108, R261, R262, R476, R480). -/
def coreRuns (s : State) (c : Nat) : Bool :=
  ((s.core c).bun.isSome ||
    (s.glb.state == .running && !s.run.abandoned && (s.core c).active && !(s.core c).ended && brickRuns s (c / 48))) &&
  !s.inReset 1 && brickClocked s (c / 48)

/-- An engine of a cluster runs descriptors. -/
def engineRuns (s : State) (g _eng : Nat) : Bool :=
  s.glb.state == .running && !s.run.abandoned && !s.inReset 1 && brickRuns s (g / 4)

/-! ### Wait limits (R97, R168, R304) -/

/-- The tick that wait limits count on: it stands still in QUIESCED and while a used port is not UP. -/
def waitClock (s : State) : Nat := s.run.waitStop.getD s.now

/-- Wait limits stop counting. -/
def stopWaits (s : State) : State := { s with run := { s.run with waitStop := some (waitClock s) } }

/-- A base from which a wait has counted, after a pause from tick t0 to now. -/
def shiftBase (t0 now b : Nat) : Nat := if b ≥ t0 then now else b + (now - t0)

/-- Wait limits count again once the device is not QUIESCED and every used port is UP. -/
def startWaits (s : State) : State :=
  match s.run.waitStop with
  | none => s
  | some t0 =>
    if s.glb.state = .quiesced ∨ (usedPorts s).any (fun n => (s.port n).state != 4) = true then s
    else
      let f := fun (w : Option Nat) => w.map (shiftBase t0 s.now)
      { s with
        cores := s.cores.map fun e => (e.1, { e.2 with waiting := f e.2.waiting })
        clusters := s.clusters.map fun e =>
          (e.1, { e.2 with engines := e.2.engines.map fun x => (x.1, { x.2 with waiting := f x.2.waiting }) })
        run := { s.run with waitStop := none } }

/-! ### Values that a rerun and the end of a run take again -/

/-- The loss scale, the hyperparameter sets, the random-stream slots, the step and the banks as they stand. -/
def savedOf (s : State) : Saved :=
  { lsExp := s.glb.lsExp, lsOvf := s.glb.lsOvf, lsClean := s.glb.lsClean, hp := s.upd.map fun e => (e.1, e.2.hp)
    rng := s.clusters.map fun e => (e.1, e.2.rng), step := s.run.step, banks := s.upd.map fun e => (e.1, e.2.bank) }

/-- Puts kept values back (R66, R185, R254). -/
def restoreSaved (s : State) (v : Saved) : State :=
  { s with
    glb := { s.glb with lsExp := v.lsExp, lsOvf := v.lsOvf, lsClean := v.lsClean }
    upd := s.upd.map fun e => (e.1, { e.2 with hp := tget [] v.hp e.1, bank := tget false v.banks e.1 })
    clusters := s.clusters.map fun e => (e.1, { e.2 with rng := tget [] v.rng e.1 })
    run := { s.run with step := v.step } }

/-- The values at the start of the step. -/
def restoreStart (s : State) : State :=
  match s.run.start with
  | some v => restoreSaved s v
  | none => s

/-! ### Restores (R243, R430) -/

/-- Sends a fetch request (code 4) for parameter groups of a tensor to the buddy; it names stack, tensor, first group
and number of groups. -/
def askFetch (s : State) (stack tensor first count : Nat) : State :=
  let ports := usedTo s s.spr.buddyUse
  if ports.isEmpty then s
  else
    let s := sendMailbox s 4 ports ([BitVec.ofNat 8 stack] ++ leBytes 4 tensor ++ leBytes 4 first ++ leBytes 4 count)
    { s with spr := { s.spr with fetches := s.spr.fetches ++ [(stack, tensor, first)] } }

/-- The buddy's reflection can be asked. -/
def buddyReachable (s : State) : Bool := s.spr.buddyUse != 0 && !(usedTo s s.spr.buddyUse).isEmpty

/-- The tensor has state outside the masters, which is written in place: moments, anchor, outer momentum (R225, R232). -/
def TensorDesc.inPlace (t : TensorDesc) : Bool := (t.rule != 0 && t.rule != 15) || t.outer != 0

/-- The tensors of a stack's program that have such state. -/
def inPlaceTensors (s : State) (n : Nat) : List (Nat × TensorDesc) :=
  (List.range (programOf s n).length).filterMap fun k => match (programOf s n)[k]? with
    | some t => if t.inPlace then some (k, t) else none
    | none => none

/-- Parameter groups of tensor k of a unit that it has written in this step. -/
def groupsWritten (s : State) (n k : Nat) (t : TensorDesc) : Nat :=
  match (s.unit n).lastGroup with
  | none => 0
  | some (k', g) => if k < k' then (t.rows + 15) / 16 else if k = k' then g + 1 else 0

/-- A unit that has written in this step: the working copies of the groups written come from bank C again, and their in-place
state is fetched. -/
def restoreUnit (s : State) (n : Nat) : State :=
  let prog := programOf s n
  let wrote (e : Nat × TensorDesc) : Nat := groupsWritten s n e.1 e.2
  let due := (inPlaceTensors s n).filter fun e => decide (0 < wrote e)
  let s := forEach ((List.range prog.length).zip prog) (fun s e =>
    rederiveRows s n e.2 (bankOf s n) 0 (Nat.min e.2.rows (16 * wrote e))) s
  let s := s.modUnit n fun u =>
    { u with restores := satInc 0xFFFFFFFF u.restores, restoring := buddyReachable s && !due.isEmpty, wrote := false, done := false,
             lastGroup := none }
  forEach due (fun s e => askFetch s n e.1 0 (wrote e)) s

/-- Units that have written bank N in this step. -/
def unitsWrote (s : State) : List Nat := (List.range 20).filter fun n => (s.unit n).wrote

/-- UPDATE and COMMIT before the commit point. -/
def beforeCommit (s : State) : Bool := !s.run.commitDone && (s.run.phase == 2 || s.run.phase == 3)

/-! ### Plan release (R58, R258, R293, R297, R344) -/

/-- No port serves the plan. -/
def unusePorts (s : State) : State :=
  { s with
    link := s.link.map fun e => (e.1, { e.2 with used := false, logical := e.1, downSince := none, lostReported := false })
    lnk := { s.lnk with shared := false, bmask := 0, map := [] } }

/-- IDENT is sent again on every port that has reached order 4 of R293. -/
def identAll (s : State) : State :=
  forEach ((List.range 48).filter fun n => decide (3 ≤ (s.port n).state)) sendIdent s

/-- The plan is released: READY becomes ISOLATED. -/
def releasePlan (s : State) : State :=
  let s := fulFreeAll s true
  let s := unusePorts s
  identAll { s with
    glb := { s.glb with state := .isolated, rseed := 0 }
    run := { s.run with plan := none, resumed := false, start := none, releaseAtResume := false }
    ing := []
    ful := { s.ful with slots := [], sent := [], closed := none, eligible := [], ready := false, queued := none, snapshot := none,
                        joinSince := none, joinBest := none } }

/-! ### The end of a run -/

/-- A core that the run leaves: nothing waits, no loop or branch is open, and a bundle in progress goes to its boundary. -/
def Core.stopped (x : Core) : Core :=
  { x with active := false, ended := false, waiting := none, waited := false, branches := [], loops := [] }

/-- Every core and engine of the device stops; the results of a core that has reached its boundary complete (R107). -/
def stopEngines (s : State) : State :=
  let s := settleAll s
  { s with
    cores := s.cores.map fun e => (e.1, e.2.stopped)
    clusters := s.clusters.map fun e =>
      (e.1, { e.2 with engines := e.2.engines.map fun x => (x.1, x.2.emptied) }) }

/-- The device's own write of the commit mark (R244). -/
def writeMark (s : State) : State :=
  match s.run.committed with
  | some k => ownWriteIfNew { s with glb := { s.glb with sinceMark := 0 } } ixCommitMark (k % 2 ^ 32) .none
  | none => s

/-- Event 6, with the eight bytes that R303 gives after 16 attempts. -/
def runEnded (s : State) : State :=
  if s.run.tainted ∧ s.run.attempt = 15 then raiseEvent s 6 [16, 0, 0, 0, 0, 0, 0, 0] else raiseOpen s 6

/-- The run ends at the last committed step (R107, R244, R305). -/
def finishRun (s : State) : State :=
  let r := s.run
  let s :=
    if r.commitDone then { s with run := { s.run with step := r.step + 1 } }
    else restoreStart (if beforeCommit s then forEach (unitsWrote s) restoreUnit s else s)
  let s := stopEngines s
  let s := { s with
    upd := s.upd.map fun e => (e.1, { e.2 with busy := false, done := false, wrote := false, lastGroup := none })
    glb := { s.glb with state := if s.glb.state = .running then .ready else s.glb.state
                        prior := if s.glb.prior = some .running then some .ready else s.glb.prior } }
  let s := runEnded (writeMark s)
  { s with
    spr := { s.spr with reflect := if s.spr.buddyUse ≠ 0 ∧ r.commitDone = true ∧ r.reflectDone = false then .unsure else s.spr.reflect }
    run := { s.run with
      phase := 7, erasedStep := none, attempt := 0, tainted := false, abandoned := false, asReset := false, stepsLeft := none, stopAt := none, ending := false,
      start := none, drainSent := false, commitDone := false, reflectDone := false, exchangeDone := false, skip := false,
      fallback := false } }

/-! ### NEEDS_REPAIR (R31, R419) -/

/-- The class of a resource word (R502). -/
def resClass (res : Nat) : Nat := res / 2 ^ 24

/-- A failure that lies on the path of REFLECT: a dense die, a lane group, a PLL, or the management core, which passes the messages of
R425 (R419). DESIGN CHOICE (log 80): spec/ does not list the path. -/
def onReflectPath (res : Nat) : Bool :=
  (resClass res == 3 && res.testBit 4) || resClass res == 4 || resClass res == 7 || (resClass res == 8 && decide (0x200 ≤ res % 2 ^ 24))

/-- Ports towards the buddy and towards the device whose reflection is held stay as they are. -/
def keptInRepair (s : State) (n : Nat) : Bool :=
  match (s.port n).nbr with
  | some i => (s.spr.buddyUse != 0 && i.serial == s.spr.buddyUse) || (s.spr.heldUse != 0 && i.serial == s.spr.heldUse)
  | none => false

/-- The device enters NEEDS_REPAIR. -/
def enterRepair (s : State) (res : Nat) : State :=
  let s := if runInProgress s then finishRun s else s
  let s := fulFreeAll s true
  let s := forEach ((usedPorts s).filter fun n => !keptInRepair s n)
    (fun s n => s.modPort n fun x => { x with state := 0, reason := 4 }) s
  let s := ownWriteIfNew { s with spr := { s.spr with repairCause := res, repairAfterReflect := none } } ixRepairCause res .none
  let s := raiseEvent s 4 (resDetail res 0)
  { s with glb := { s.glb with state := .needsRepair, prior := none }, lnk := { s.lnk with shared := false } }

/-- A failure that no shadow covers, on the path of REFLECT or not. After a commit point whose REFLECT can still be made, that comes
first (R419). A device that no image runs stays in BOOTING (R458). -/
def needsRepairAt (s : State) (res : Nat) (onPath : Bool) : State :=
  match s.glb.state with
  | .cold | .needsRepair | .alarm => s
  | _ =>
    if s.fw.dead || s.spr.repairAfterReflect.isSome then s
    else if runInProgress s && s.run.commitDone && !s.run.reflectDone && s.spr.buddyUse != 0 && !onPath then
      { s with spr := { s.spr with repairAfterReflect := some res } }
    else enterRepair s res

def needsRepair (s : State) (res : Nat) : State := needsRepairAt s res (onReflectPath res)

/-- The run ends; NEEDS_REPAIR that waited for its REFLECT does so no longer (R419). -/
def closeRun (s : State) : State :=
  let s := finishRun s
  match s.spr.repairAfterReflect with
  | some res => enterRepair s res
  | none => s

/-! ### The end that must come -/

/-- Some core has a bundle in progress. -/
def midBundle (s : State) : Bool := s.cores.any fun e => e.2.bun.isSome

/-- A run that must end does so in RUNNING once every core has reached its bundle boundary (R107); a plan that must go is then
released (R213). -/
def endDue (s : State) : State :=
  let s := if s.run.ending ∧ s.glb.state = .running ∧ midBundle s = false then closeRun s else s
  if s.run.releaseAtResume ∧ s.glb.state = .ready then releasePlan s else s

/-- A run in progress ends: in RUNNING at the bundle boundaries of its cores (R107), in QUIESCED on RESUME (R305). Until then nothing
issues. -/
def endRun (s : State) : State :=
  if runInProgress s then endDue { s with run := { s.run with ending := true, abandoned := true } } else s

/-! ### Taints (R243, R303, R476) -/

/-- The current step is tainted: the attempt is abandoned, TAINT travels, and what the units have written is restored. A
taint after the commit point leaves the step as it stands, unless an evaluation slot runs (R243, R277). The step that
attempt 15 leaves tainted ends its run. -/
def taint (s : State) : State :=
  if !runInProgress s || s.run.tainted || s.run.ending || (s.run.commitDone && s.run.phase != 6) then s
  else
    let s := { s with run := { s.run with tainted := true, abandoned := true } }
    let s := forEach (usedPorts s) sendIdle s
    if s.run.attempt = 15 then endRun s
    else if beforeCommit s && !(unitsWrote s).isEmpty then
      let lost := !buddyReachable s && (unitsWrote s).any fun n => !(inPlaceTensors s n).isEmpty
      let s := forEach (unitsWrote s) restoreUnit s
      if lost then endRun s else s
    else s

/-- A word was lost: the step is tainted and reruns as after a reset of COMPUTE (R135, R212). -/
def taintReset (s : State) : State := taint { s with run := { s.run with asReset := s.run.asReset || runInProgress s } }

/-! ### Plan faults (R107, R197) -/

/-- A plan fault of a core: `CORE_FAULT` records it, event 1 reports it, and the run ends. -/
def corePlanFault (s : State) (c code pc tok : Nat) : State :=
  let s := s.modCore c fun x =>
    { x with faultCode := code, faultPc := pc, faultTok := if code = 3 ∨ code = 4 then tok else 0 }
  endRun (raiseOpen s 1)

/-- A plan fault of an engine: `CLU_ENG_FAULT` records the first of the step (R197). -/
def enginePlanFault (s : State) (g eng desc code : Nat) : State :=
  let s := s.modCluster g fun k =>
    if k.faultThisStep then k
    else { k with faultEng := eng, faultDesc := desc, faultCode := code, faultThisStep := true }
  endRun (raiseOpen s 1)

/-! ### Tokens (R94, R96) -/

/-- The bundle in progress of a core is in its cycle of issue, and its control slot with opcode `op` on counter `tok` has still to
act in it. -/
def tokenPending (x : Core) (op tok : Nat) : Bool :=
  match x.bun with
  | some b =>
    let w := slotWord b.raw 7
    b.rep == 0 && slotEnabled b.raw 7 && b.preds.testBit 7 && !b.slotsDone.contains 7 && opOf w == op && bits w 61 30 % 64 == tok
  | none => false

/-- An increment of counter `tok` that came in the cycle of issue is noted for the control slot of that cycle (R96). -/
def noteArrival (x : Core) (tok : Nat) : Core := { x with bun := x.bun.map fun b => { b with arrived := tok :: b.arrived } }

/-- Adds 1 to a token counter; past 65,535 it stays and faults. In a cycle whose TOKSET has still to set the counter, the increment is
kept for it (R96). DESIGN CHOICE (log 75): spec/ is silent on SIGNAL to 480 to
511, which name no core, and it does nothing here. -/
def addToken (s : State) (c tok : Nat) : State :=
  if 480 ≤ c then s
  else
    let x := s.core c
    let t := tok % 64
    if tokenPending x 0x32 t then s.setCore c (noteArrival x t)
    else if readT x t ≥ 65535 then corePlanFault s c 3 x.pc t
    else
      let x := writeT x t (readT x t + 1)
      s.setCore c (if tokenPending x 0x31 t then noteArrival x t else x)

end Sys2Proof.Machine
end

