-- ==== Sys2Proof/Machine/KeyOps.lean ====
section
/-!
DEFINITION. What an erasure of derived keys leaves (R37, R383).
-/
namespace Sys2Proof.Machine

/-- Every derived key is erased with its counts; Isaex keys are asked for again, and Fuelle keys on their next use (R37, R383). -/
def eraseDerived (s : State) : State :=
  let s := { s with
    sess := s.sess.map fun e => (e.1, { e.2 with epochs := [], txEpochs := [] })
    fctx := s.fctx.map fun e => (e.1, { e.2 with txEpochs := [], rxEpochs := [], offerTx := false, offerRx := 0, erased := true }) }
  let s := forEach [0, 1] (fun s d => dropUses (s.modEther d fun x => { x with c3 := [] }) d fun _ => true) s
  forEach (s.sess.filter fun e => e.2.state != .free) (fun s e => refreshIsaex s e.1) s

end Sys2Proof.Machine
end

