-- ==== Sys2Proof/Machine/FnReset.lean ====
section
/-!
DEFINITION. The start of a function reset (R37 to R40, R434) and what each function loses (R72, R115, R195, R359, R407).
-/
namespace Sys2Proof.Machine

/-- A core after a reset of COMPUTE (R71, R72, R115, R122): fault records, counters, maps and limits stay. DESIGN CHOICE (log 75):
spec/ does not say whether the epilogue sets of R127 are cleared; they stay here. -/
def resetCore (c : Nat) (x : Core) : Core :=
  let gen := x.rf.gen + 1
  { x with
    rf := { v := [], s := [], x := [], p := [], t := [], gen := gen }
    tile := 0, kq := 0, loops := []
    feed := (List.range 256).map fun i => (Config.unspecReg gen c 6 i).setWidth 8
    feedLen := 256
    arrays := x.arrays.map fun e =>
      (e.1, { Arr.reset with shadow0 := e.2.shadow0, shadow1 := e.2.shadow1, parEvents := e.2.parEvents })
    chain := [], waiting := none, waited := false, bun := none, branches := [], flight := [], past := [], stores := [] }

/-- A cluster after a reset of COMPUTE (R195): random-stream slots stay until the rerun restores them. -/
def resetCluster (k : Cluster) : Cluster :=
  { k with
    engines := k.engines.map fun e => (e.1, { e.2.emptied with tokens := [] })
    sendMap := [], recvMap := [], faultEng := 0, faultDesc := 0, faultCode := 0, faultThisStep := false }

/-- All cores, cluster memories and cluster engines. -/
def resetCompute (s : State) : State :=
  let s := forEach (List.range 480) (fun s c => s.modCore c (resetCore c)) s
  { s with clusters := s.clusters.map fun e => (e.1, resetCluster e.2) }

/-- A port leaves UP or its training; a used one under a plan holds its flits, and the wait limits stop (R304). -/
def downLink (s : State) (n : Nat) : State :=
  let x := s.port n
  let under := x.used && s.run.plan.isSome
  let s := s.setPort n
    { x with state := 0, reason := 0, restarts := 0, identSent := false
             downSince := if under then some (x.downSince.getD s.now) else none }
  if under then stopWaits s else s

/-- A port retrains: it starts its training again, and the retrain is counted (R293, R310). -/
def dropLink (s : State) (n : Nat) : State :=
  downLink (s.modPort n fun x => { x with retrains := satInc 0xFFFF x.retrains }) n

/-- Mortar and the links (R37): every port that is not DOWN trains again, exchanges identity and announces RESET; a port DOWN trains as
soon as it may. A lasting lane or port logic stays lasting (R217), and its port FENCED with reason 6 or 7. -/
def resetFabric (s : State) : State :=
  forEach (List.range 48)
    (fun s n =>
      let s := s.modPort n fun x => { x with announceReset := true }
      let x := s.port n
      if x.state = 0 ∨ (x.state = 5 ∧ (x.reason = 6 ∨ x.reason = 7)) then s else dropLink s n) s

/-- Before the first sample, SRTT is the profile's (R353). -/
def profileSrtt (long : Bool) : Nat := if long then 6000000 else 100000
def profileRto (long : Bool) : Nat := if long then 2000000 else 200000
def startRate (long : Bool) : Nat := if long then 10000 else 25000

/-- The estimator of a session starts from its profile (R353, R355). -/
def FulCtx.freshEstimator (f : FulCtx) : FulCtx :=
  let long := f.profileUse == 1
  { f with srtt := profileSrtt long, rttvar := 0, rto := Nat.max (profileSrtt long) (profileRto long), rtoScale := 1, sampled := false, above := 0, below := 0 }

/-- Working cipher cores of a die. -/
def cipherCores (s : State) (d : Nat) : Nat := ((List.range 5).filter fun k => (s.cipher d).cores.getLsbD k).length

/-- `FUL_PACE.SHARE` as it applies to a die (R379, R480). -/
def shareOf (s : State) (iod : Nat) : Nat :=
  let a := if s.pwr.throttleIod.getLsbD iod then s.ful.share / 2 else s.ful.share
  let k := cipherCores s iod
  if k = 3 then Nat.min a 70 else if k = 2 then Nat.min a 40 else a

/-- Sessions of a die that have a rate. -/
def ratedSessions (s : State) (iod : Nat) : List Nat := (s.fctx.filter fun e => e.2.state != 0 && portOf e.1 == iod).map (·.1)

/-- Scales the sessions of a port where their sum would exceed its share (R353); 1 % of 800 Gbit/s is 8,000 Mbit/s. -/
def scaleRates (s : State) (iod : Nat) : State :=
  let l := ratedSessions s iod
  let sum := (l.map fun c => (s.fuelle c).rate).sum
  let top := 8000 * shareOf s iod
  if sum ≤ top then s
  else forEach l (fun s c => s.modFuelle c fun f => { f with rate := f.rate * top / sum, rateBase := f.rateBase * top / sum }) s

/-- Both Fuelle engines: group buffers, estimators and the packets that wait are lost (R37, R359). -/
def resetExchange (s : State) : State :=
  let s := forEach [0, 1] (fun s d => s.modEther d fun x => { x with c3 := [] }) s
  { s with fctx := s.fctx.map fun e => (e.1, { e.2.freshEstimator with groups := [], due := [] }) }

/-- All ingest engines: every stream restarts from its cursor (R37). -/
def resetIngest (s : State) : State :=
  { s with ing := s.ing.map fun e => (e.1, { e.2 with landed := [], reads := [] }) }

/-- A function reset starts: its bit is set, and the function loses what its reset clears. -/
def beginReset (s : State) (fn : Nat) (e : Option Env) : State :=
  if s.inReset fn then s
  else
    let s := { s with
      glb := { s.glb with fnReset := s.glb.fnReset ||| (1 <<< fn) }
      long := { s.long with fnReset := s.long.fnReset ++ [(fn, e)] } }
    let s := if e.isNone then raiseOpen s 16 else s
    if fn = 1 then resetCompute (taint s)
    else if fn = 2 then
      let s := taint s
      { s with upd := s.upd.map fun e => (e.1, { e.2 with busy := false, done := false }) }
    else if fn = 3 then resetFabric (taint s)
    else if fn = 4 then resetExchange s
    else if fn = 5 then resetIngest s
    else if fn = 6 then eraseDerived s
    else s

/-- The device works: neither COLD nor BOOTING. -/
def working (s : State) : Bool := s.glb.state != .cold && s.glb.state != .booting

/-- A function reset that the device makes on its own: R38 and R39 hold for it as for a request (R434). -/
def ownReset (s : State) (fn : Nat) : State :=
  if !working s || (s.glb.state == .alarm && fn != 0) then s else beginReset s fn none

end Sys2Proof.Machine
end

