-- ==== Sys2Proof/Machine/Faults.lean ====
section
/-!
DEFINITION. Lasting faults (R217 to R219, R502), the shadows that cover them (R414 to R418), lost links (R305), lost words
(R212, R213) and the step boundary (R413).
-/
namespace Sys2Proof.Machine

/-! ### Resource words (R502) -/

/-- The resource word of a resource; a persistent record's word is built where it is reported. -/
def resWord : Res → Nat
  | .core c => 1 * 2 ^ 24 + c
  | .bank g b => 2 * 2 ^ 24 + 64 * g + b
  | .die s dense d => 3 * 2 ^ 24 + 32 * s + 16 * b2n dense + d
  | .laneGroup q k => 4 * 2 ^ 24 + 256 * q + k
  | .pipeline s p => 5 * 2 ^ 24 + 2 * s + p
  | .cipherCore d k => 6 * 2 ^ 24 + 8 * d + k
  | .mgmtCore i => 7 * 2 ^ 24 + i
  | .builtinTest n => 8 * 2 ^ 24 + n
  | .column c a j => 9 * 2 ^ 24 + 256 * c + 64 * a + j
  | .rfEntry c e => 10 * 2 ^ 24 + 1024 * c + e
  | .linkLane n k => 11 * 2 ^ 24 + 16 * n + k
  | .portLogic n => 12 * 2 ^ 24 + n
  | .pstDie i => 13 * 2 ^ 24 + i
  | .pstRecord i => 14 * 2 ^ 24 + i

/-- The resource that a word names. -/
def resOf (w : Nat) : Option Res :=
  let r := w % 2 ^ 24
  match w / 2 ^ 24 with
  | 1 => some (.core r)
  | 2 => some (.bank (r / 64) (r % 64))
  | 3 => some (.die (r / 32) (bit r 4) (r % 16))
  | 4 => some (.laneGroup (r / 256) (r % 256))
  | 5 => some (.pipeline (r / 2) (r % 2))
  | 6 => some (.cipherCore (r / 8) (r % 8))
  | 7 => some (.mgmtCore r)
  | 8 => some (.builtinTest r)
  | 9 => some (.column (r / 256) (r / 64 % 4) (r % 64))
  | 10 => some (.rfEntry (r / 1024) (r % 1024))
  | 11 => some (.linkLane (r / 16) (r % 16))
  | 12 => some (.portLogic r)
  | 13 => some (.pstDie r)
  | 14 => some (.pstRecord r)
  | _ => none

/-! ### Maps, as their records will stand once every write asked for has completed -/

/-- A map of two shadows of 5 bits each with USED bits, in the layout of R136 and R196. -/
def usedAt (v k : Nat) : Bool := bit v (5 + 8 * k)
def logicalAt (v k : Nat) : Nat := bits v (8 * k + 4) (8 * k)
def withShadow (v k logical : Nat) : Nat :=
  v - bits v (8 * k + 5) (8 * k) * 2 ^ (8 * k) + (32 + logical % 32) * 2 ^ (8 * k)

def bankMap (s : State) (g : Nat) : Nat := pstLatest s (ixBankMap g)
/-- The core that does the work of logical core c: itself, or, as 480 + g, the shadow core of cluster g (R136, R415). -/
def coreSlot (s : State) (c : Nat) : Nat := if (s.cluster (c / 12)).shadowCore = some (c % 12) then 480 + c / 12 else c
def columnMap (s : State) (c a : Nat) : Nat := pstLatest s (ixColumns (coreSlot s c) a) >>> (16 * (a % 2)) % 65536
def putColumnMap (s : State) (c a v : Nat) : Nat :=
  let w := pstLatest s (ixColumns (coreSlot s c) a)
  if a % 2 = 0 then w / 65536 * 65536 + v else w % 65536 + 65536 * v
/-- `SPR_CORE_MAPg`: USED [4], LOGICAL [3:0]. -/
def coreMap (s : State) (g : Nat) : Nat := pstLatest s (ixCoreMap g)
/-- `STK_DIE_MAP` (R223). -/
def dieMap (s : State) (n : Nat) : Nat := pstLatest s (ixDieMap n)
def dieUsed (v : Nat) (dense : Bool) : Bool := bit v (if dense then 7 else 3)
def dieServed (v : Nat) (dense : Bool) : Nat := if dense then bits v 6 4 else bits v 2 0
def dieCopies (v : Nat) (dense : Bool) : Bool := bit v (if dense then 9 else 8)
/-- The die map with the shadow of a tier in use for logical die d and its copy running. -/
def withDie (v : Nat) (dense : Bool) (d : Nat) : Nat := v + (if dense then 512 + 128 + 16 * d else 256 + 8 + d)
/-- `LNK_STATE` bits of the shadow lane: SH_USED [3], SH_LANE [2:0] of the record. -/
def laneMap (s : State) (n : Nat) : Nat := pstLatest s (ixLane n)
/-- Entry k of the register-file map: the entry that spare k replaces, plus 1. -/
def rfMapAt (s : State) (c k : Nat) : Nat := bits (pstLatest s (ixRf (coreSlot s c) (k / 3))) (10 * (k % 3) + 9) (10 * (k % 3))

/-- Cycles of a stall for replay count under cause 8, and at half rate as many again under thermal; those of a core parked in QUIESCED
count under command (R93, R211, R278). -/
def stallCore (s : State) (c n : Nat) : State :=
  if s.glb.state = .running ∨ (s.glb.state = .quiesced ∧ (s.core c).bun.isSome = true) then
    let half := s.pwr.stretch.getLsbD (c / 48)
    s.modCore c fun x =>
      let t := tmod 0 x.idle 8 (· + n)
      { x with idle := if half then tmod 0 t 7 (· + n) else t }
  else s

/-- A resource as the shadow that serves it, where its shadow has taken over. -/
def servedRes (s : State) : Res → Res
  | .bank g b => if (s.cluster g).bank0 = some b then .bank g 32 else if (s.cluster g).bank1 = some b then .bank g 33 else .bank g b
  | .column c a j =>
    if ((tget Arr.reset (s.core c).arrays a).shadow0) = some j then .column c a 32
    else if ((tget Arr.reset (s.core c).arrays a).shadow1) = some j then .column c a 33 else .column c a j
  | .die n dense d =>
    let k := s.stack n
    if (if dense then k.denseDie else k.fastDie) = some d ∧ (if dense then k.denseCopying else k.fastCopying) = false then .die n dense 8
    else .die n dense d
  | .linkLane n k => if (s.port n).shLane = some k then .linkLane n 8 else .linkLane n k
  | r => r

/-! ### Lost links (R304, R305) -/

/-- The reflection cannot be read: as at the loss of its holder, nothing more is restored from it and the run ends (R243, R430). -/
def loseHolder (s : State) : State :=
  endRun { s with
    spr := { s.spr with fetches := [] }
    upd := s.upd.map fun e => (e.1, { e.2 with restoring := false }) }

/-- A used port is lost under a committed plan: event 9, and the run ends. -/
def loseLink (s : State) (n : Nat) : State :=
  let x := s.port n
  if x.used && s.run.plan.isSome && !x.lostReported then
    let s := raiseOpen (s.setPort n { x with lostReported := true }) 9
    if buddyReachable s then endRun s else loseHolder s
  else s

/-- A port becomes FENCED with a reason; a used one counts as lost. -/
def fencePort (s : State) (n reason : Nat) : State :=
  let s := downLink s n
  loseLink (s.modPort n fun x => { x with state := 5, reason := reason }) n

/-! ### Lasting faults -/

/-- Records that a resource is lasting and that a swap is due once its record is written (R413). -/
def awaitSwap (s : State) (r : Res) (ix value : Nat) : State :=
  let s := { s with spr := { s.spr with swaps := s.spr.swaps ++ [{ res := (resWord r), written := false, tested := false }] } }
  ownWrite s ix value (.swap (resWord r))

/-- Moves a core onto its cluster's shadow core (R415); a further fault of a core whose move is due already is covered by it. -/
def moveCore (s : State) (c : Nat) : State :=
  let m := coreMap s (c / 12)
  if m % 32 = 16 + c % 12 ∧ s.spr.swaps.any (fun w => w.res == resWord (.core c)) = true then s
  else if bit m 4 then needsRepair s (resWord (.core c))
  else awaitSwap s (.core c) (ixCoreMap (c / 12)) (16 + c % 12)

/-- The first shadow of two that is neither in use nor itself lasting. -/
def freeShadow (s : State) (v : Nat) (shadow : Nat → Res) : Option Nat :=
  [0, 1].find? fun k => !usedAt v k && !s.spr.lasting.contains (resWord (shadow k))

/-- Moves a cluster-memory bank onto a shadow bank (R417). -/
def moveBank (s : State) (g b : Nat) : State :=
  let m := bankMap s g
  let serves : Option Nat := if b < 32 then some b else if usedAt m (b - 32) then some (logicalAt m (b - 32)) else none
  match serves with
  | none => s
  | some l =>
    match freeShadow s m (fun k => .bank g (32 + k)) with
    | some k => awaitSwap s (.bank g b) (ixBankMap g) (withShadow m k l)
    | none => needsRepair s (resWord (.bank g b))

/-- Moves an array column onto a shadow column, or the core (R134). DESIGN CHOICE (log 75): the rule takes a free shadow column and
does not say which of two; it is the lower-numbered one here. Where a shadow column has itself failed and the other replaces
it, spec/ does not say what `ARR_SHADOW` reads for it; its USED and COL stay beside the second entry here. -/
def moveColumn (s : State) (c a j : Nat) : State :=
  let m := columnMap s c a
  let serves : Option Nat := if j < 32 then some j else if usedAt m (j - 32) then some (logicalAt m (j - 32)) else none
  match serves with
  | none => s
  | some l =>
    match freeShadow s m (fun k => .column c a (32 + k)) with
    | some k => awaitSwap s (.column c a j) (ixColumns (coreSlot s c) a) (putColumnMap s c a (withShadow m k l))
    | none => moveCore s c

/-- Moves a V register onto a spare entry, or, with the ninth lasting entry, the core (R73). -/
def moveRf (s : State) (c e : Nat) : State :=
  let serves : Option Nat := if e < 512 then some e else if rfMapAt s c (e - 512) = 0 then none else some (rfMapAt s c (e - 512) - 1)
  let n := (s.spr.lasting.filter fun w => decide (w / 2 ^ 24 = 10) && decide (w % 2 ^ 24 / 1024 = c)).length
  if n > 8 then moveCore s c
  else
    match serves, (List.range 8).find? fun k => decide (rfMapAt s c k = 0) && !s.spr.lasting.contains (resWord (.rfEntry c (512 + k))) with
    | none, _ => s
    | some _, none => moveCore s c
    | some l, some k =>
      let ix := ixRf (coreSlot s c) (k / 3)
      let old := pstLatest s ix
      awaitSwap s (.rfEntry c e) ix (old + (l + 1) * 2 ^ (10 * (k % 3)))

/-- Starts the repair of a die (R221), or finds its tier's shadow taken (R222). -/
def moveDie (s : State) (n : Nat) (dense : Bool) (d : Nat) : State :=
  let m := dieMap s n
  let spoilt := s.spr.lasting.contains (resWord (.die n dense 8))
  if d < 8 ∧ dieUsed m dense = false ∧ spoilt = false then awaitSwap s (.die n dense d) (ixDieMap n) (withDie m dense d)
  else if d = 8 ∧ dieUsed m dense = false then s
  else needsRepair s (resWord (.die n dense d))

/-- Moves a lane group onto its shadow lane (R416). -/
def moveLaneGroup (s : State) (q k : Nat) : State :=
  let m := pstLatest s (ixLaneGroup q (k / 32))
  if bit m (k % 32) then needsRepair s (resWord (.laneGroup q k))
  else awaitSwap s (.laneGroup q k) (ixLaneGroup q (k / 32)) (m + 2 ^ (k % 32))

/-- Moves a stack onto its shadow update pipeline (R243). -/
def movePipe (s : State) (n p : Nat) : State :=
  if pstLatest s (ixPipe n) ≠ 0 then needsRepair s (resWord (.pipeline n p))
  else if p = 1 then s
  else if s.spr.lasting.contains (resWord (.pipeline n 1)) then needsRepair s (resWord (.pipeline n 0))
  else awaitSwap s (.pipeline n p) (ixPipe n) 1

/-- Moves a receive lane onto the shadow lane, or fences the port (R291). -/
def moveLane (s : State) (n k : Nat) : State :=
  let m := laneMap s n
  if bit m 3 then fencePort s n 6
  else if k ≥ 8 then s
  else if s.spr.lasting.contains (resWord (.linkLane n 8)) then fencePort s n 6
  else awaitSwap s (.linkLane n k) (ixLane n) (8 + k)

/-- Replaces a cipher core by the die's shadow core; with fewer cores the rates of the die's sessions are scaled, and below two cores the
device needs repair (R379). -/
def moveCipher (s : State) (d k : Nat) : State :=
  let c := s.cipher d
  let serving := c.cores.getLsbD k
  let left := c.cores &&& ~~~ (1#5 <<< k)
  let shadowOk := !c.shadowUsed && k != 4 && !s.spr.lasting.contains (resWord (.cipherCore d 4))
  let s := s.modCipher d fun c => { c with cores := if serving && shadowOk then left ||| 16 else left, shadowUsed := c.shadowUsed || (serving && shadowOk) }
  let s :=
    if serving && shadowOk then ownWrite (raiseEvent s 3 (resDetail (resWord (.cipherCore d k)) 0)) (ixCipher d) (64 + 32 + 16 + left.toNat) .none
    else ownWrite s (ixCipher d) (64 + (if c.shadowUsed then 32 else 0) + left.toNat) .none
  let s := scaleRates s d
  if cipherCores s d < 2 then needsRepair s (resWord (.cipherCore d k)) else s

/-- The shadow management core takes over; with it in use the device needs repair (R418). -/
def moveMgmt (s : State) (i : Nat) : State :=
  let active := if s.spr.mgmtActive then 1 else 0
  if i ≠ active then s
  else if s.spr.mgmtActive || s.spr.lasting.contains (resWord (.mgmtCore 1)) then needsRepair s (resWord (.mgmtCore i))
  else
    let s := { s with spr := { s.spr with mgmtActive := true } }
    let s := raiseEvent s 3 (resDetail (resWord (.mgmtCore i)) 0)
    beginReset (ownWrite s ixMgmtActive 1 .none) 0 none

/-- What a lasting fault of a resource leads to (R219, R414). -/
def moveRes (s : State) : Res → State
  | .core c => moveCore s c
  | .bank g b => moveBank s g b
  | .die n dense d => moveDie s n dense d
  | .laneGroup q k => moveLaneGroup s q k
  | .pipeline n p => movePipe s n p
  | .cipherCore d k => moveCipher s d k
  | .mgmtCore i => moveMgmt s i
  | .column c a j => moveColumn s c a j
  | .rfEntry c e => moveRf s c e
  | .linkLane n k => moveLane s n k
  | .portLogic n => fencePort s n 7
  | .builtinTest _ => s
  | .pstDie _ => s
  | .pstRecord _ => s

/-- A resource is lasting from now on: event 2, the summary, and what follows (R217). -/
def markLasting (s : State) (r : Res) : State :=
  if s.spr.lasting.contains (resWord r) then s
  else
    let s := { s with spr := { s.spr with lasting := s.spr.lasting ++ [(resWord r)] } }
    let s := raiseEvent s 2 (resDetail (resWord r) 0)
    let s := moveRes s r
    ownWriteIfNew s ixLasting (Nat.min 255 (pstLatest s ixLasting + 1)) .none

/-- One event of R211 against a resource (R217). -/
def countEvent (s : State) (r : Res) : State :=
  let e := tget (0, 0) s.spr.counts (resWord r)
  let (n, start) := if e.1 = 0 ∨ s.now - e.2 ≥ pstValue s ixWindow then (1, s.now) else (e.1 + 1, e.2)
  let s := { s with spr := { s.spr with counts := tput s.spr.counts (resWord r) (n, start) } }
  if n ≥ pstValue s ixEvents then markLasting s r else s

/-! ### Swaps (R413) -/

/-- Place of a swap in the order of R413; receive lanes move during the drain, ahead of all (R291). -/
def swapOrder (res : Nat) : Nat :=
  match resClass res with
  | 11 => 0
  | 4 => 1
  | 2 => 2
  | 9 => 3
  | 10 => 3
  | 1 => 4
  | 5 => 5
  | _ => 6

/-- A swap may be made: its record is written, and a shadow core has passed its test (R415). -/
def swapReady (w : Swap) : Bool := w.written && (resClass w.res != 1 || w.tested)

/-- The logical unit that a shadow serves by a map, where it is in use. -/
def usedShadow (v k : Nat) : Option Nat := if usedAt v k then some (logicalAt v k) else none

/-- The shadow columns of a core's arrays, as the records of the core that works have them (R134, R136). -/
def takeColumns (s : State) (c : Nat) (x : Core) : Core :=
  { x with arrays := (List.range 4).foldl (fun t a =>
      let v := pstValue s (ixColumns (coreSlot s c) a) >>> (16 * (a % 2)) % 65536
      tmod .reset t a fun r => { r with shadow0 := usedShadow v 0, shadow1 := usedShadow v 1 }) x.arrays }

/-- A resource word names a column or a register-file entry of a core. -/
def partOfCore (c res : Nat) : Bool :=
  (resClass res == 9 && res % 2 ^ 24 / 256 == c) || (resClass res == 10 && res % 2 ^ 24 / 1024 == c)

/-- A column's values are unspecified after the swap (R134): the weights of column j in both tiles, and the values of
column j of the 64 entries, are free. -/
def swapColumn (s : State) (c a j : Nat) : State :=
  let t := s.fresh
  let x := s.core c
  let r := tget Arr.reset x.arrays a
  let free (e : Nat) : W32 := BitVec.ofNat 32 (leNat (((freeBytes t 256).drop (4 * e)).take 4))
  let acc : Tab AccEntry := (List.range 64).foldl (fun l e =>
    let old := (tfind l e).getD
      { vals := (List.range 32).map fun i =>
          if x.rf.gen = 0 then 0 else (Config.unspecReg x.rf.gen c 4 ((64 * a + e) * 32 + i)).setWidth 32
        cls := 0, empty := false, ready := 0, src := 0 }
    tput l e { old with vals := old.vals.set j (free e) }) r.acc
  let lose (w : Tile) : Tile := { w with lost := (w.lost.filter fun l => l.2.1 != j) ++ (List.range 16).map fun p => (p, j, t) }
  (s.setCore c { x with arrays := tput x.arrays a { r with acc := acc, active := lose r.active, standby := lose r.standby } }).ticket

/-- Most cycles, 20 a tick, that a swap adds to the switch (R221, R415 to R417); none for a swap whose bound spec/ does not give. -/
def swapBound (res : Nat) : Option Nat :=
  match resClass res with
  | 1 => some 10000
  | 2 => some 12600
  | 3 => some 4000
  | 4 => some 40000
  | _ => none

/-- Every core stalls for the cycles that a swap takes, which are free within its bound (R413); the swap of a receive lane is part of
the drain. -/
def stallSwap (s : State) (res : Nat) : State :=
  if resClass res = 11 then s
  else
    let v := leNat (freeBytes s.fresh 4)
    let n := 1 + (match swapBound res with | some b => v % b | none => v)
    (forEach (List.range 480) (fun s c => stallCore s c n) s).ticket

/-- Both ends retrain a lane group; three failures reset FABRIC (R416). DESIGN CHOICE (log 80): no command says how a retrain ends, which
is free. -/
def retrainGroup (s : State) (res : Nat) : State :=
  let failed := (Config.freeByte s.fresh 0).getLsbD 0
  let s := s.ticket
  if failed then ownReset { s with spr := { s.spr with retrain := s.spr.retrain ++ [res] } } 3 else s

/-- The reset of FABRIC has ended: a group that still fails leads to NEEDS_REPAIR (R416). -/
def retrainAgain (s : State) : State :=
  forEach s.spr.retrain (fun s res =>
    let failed := (Config.freeByte s.fresh 0).getLsbD 0
    if failed then needsRepair s.ticket res else s.ticket) { s with spr := { s.spr with retrain := [] } }

/-- What a swap changes besides the maps in use. The plan sees no change of a core's, a bank's or a register's contents
(R413, R415, R417); a shadow core brings its own arrays and their mismatch counts (R136). -/
def makeSwap (s : State) (res : Nat) : State :=
  let s := { s with spr := { s.spr with
    swaps := s.spr.swaps.filter fun w => w.res != res
    counts := tdel s.spr.counts res
    lasting := if resClass res = 1 ∨ resClass res = 5 ∨ resClass res = 4 then s.spr.lasting.filter fun w => w != res else s.spr.lasting } }
  let s := stallSwap s res
  let done (s : State) : State := raiseEvent s 3 (resDetail res 0)
  match resOf res with
  | some (.bank g _) =>
    let v := pstValue s (ixBankMap g)
    done (s.modCluster g fun k => { k with bank0 := usedShadow v 0, bank1 := usedShadow v 1 })
  | some (.column c a j) =>
    let v := pstValue s (ixColumns (coreSlot s c) a) >>> (16 * (a % 2)) % 65536
    let l := if j < 32 then j else logicalAt v (j - 32)
    let s := swapColumn s c a l
    done (s.modCore c (takeColumns s c))
  | some (.core c) =>
    let s := s.modCluster (c / 12) fun k => { k with shadowCore := some (c % 12) }
    let s := { s with spr := { s.spr with lasting := s.spr.lasting.filter fun w => !partOfCore c w } }
    done (s.modCore c fun x =>
      let x := takeColumns s c x
      { x with arrays := x.arrays.map fun e => (e.1, { e.2 with parEvents := 0 }) })
  | some (.pipeline n _) => done (s.modUnit n fun u => { u with pipe := true })
  | some (.die n dense d) =>
    s.modStack n fun k =>
      if dense then { k with denseDie := some d, denseCopying := true, denseRunning := true, densePtr := 0 }
      else { k with fastDie := some d, fastCopying := true, fastRunning := true, fastPtr := 0 }
  | some (.linkLane n k) =>
    let s := done (s.modPort n fun x => { x with shLane := some k })
    if (s.port n).state = 4 ∨ (s.port n).state = 6 then sendCtrl s n 3 k s.run.phase else s
  | some (.laneGroup _ _) => retrainGroup (done s) res
  | _ => done s

/-- The swaps that are ready, in the order of R413. -/
def readySwaps (s : State) : List Nat :=
  let l := (s.spr.swaps.filter swapReady).map (·.res)
  (List.range 7).flatMap fun k => l.filter fun r => swapOrder r == k

/-- Makes every swap that is ready. -/
def makeSwaps (s : State) : State := forEach (readySwaps s) makeSwap s

/-- A swap falls due outside a run: at once, except that QUIESCED holds all but the start of a die copy; in RUNNING and
QUIESCED from it, the step boundary is waited for, and QUIESCED lets a die copy start (R413). -/
def swapsOutsideRun (s : State) : State :=
  if s.glb.state = .running then s
  else if s.glb.state = .quiesced then forEach ((readySwaps s).filter fun r => resClass r == 3) makeSwap s
  else makeSwaps s

/-! ### Lost words (R212, R213) -/

/-- The region of the committed plan that holds an address: its kind (R256). -/
def regionKind (s : State) (pa : Nat) : Option Nat :=
  (s.run.plan.bind fun p => p.regions.find? fun r => decide (r.base ≤ pa ∧ pa < r.base + r.length)).map (·.kind)

/-- A 32-bit word takes an unspecified value (R212). -/
def loseWord (s : State) (pa : Nat) : State := (writeBytes s (pa / 4 * 4) (freeBytes s.fresh 4)).ticket

/-- A stack records the loss (R223). -/
def noteLost (s : State) (n : Nat) (dense : Bool) (off : Nat) : State :=
  s.modStack n fun k =>
    { k with lost := satInc 0xFFFFFFFF k.lost
             lostAddr := BitVec.ofNat 32 (b2n dense * 2 ^ 31 + dieOf off * 2 ^ 28 + localOf off / 64) }

/-- The tensor of a stack's update program whose state region, or working copy, holds an address: its index, the row and
the array (0 master A, 1 master B, 2 other state, 3 working copy or its factors). -/
def tensorAt (s : State) (n pa : Nat) : Option (Nat × TensorDesc × Nat × Nat) :=
  let prog := programOf s n
  (List.range prog.length).findSome? fun k =>
    match prog[k]? with
    | none => none
    | some t =>
      let base := stateBase n t
      let wsize := if t.wfmt = 1 then 512 else 256
      if t.work ≤ pa ∧ pa < t.work + wsize * t.rows then some (k, t, (pa - t.work) / wsize, 3)
      else if t.wfmt ≠ 1 ∧ t.wscale ≤ pa ∧ pa < t.wscale + 4 * t.rows then some (k, t, (pa - t.wscale) / 4, 3)
      else if base ≤ pa ∧ pa < base + 4 * t.n then some (k, t, (pa - base) / 1024, 0)
      else if base + 4 * t.n ≤ pa ∧ pa < base + 8 * t.n then some (k, t, (pa - base - 4 * t.n) / 1024, 1)
      else if base + 8 * t.n ≤ pa ∧ pa < base + 10 * t.n then some (k, t, ((pa - base - 8 * t.n) % t.n) / 256, 2)
      else if base + 10 * t.n ≤ pa ∧ pa < base + 14 * t.n then some (k, t, (pa - base - 10 * t.n) / 1024, 2)
      else if base + 14 * t.n ≤ pa ∧ pa < base + 15 * t.n then some (k, t, (pa - base - 14 * t.n) / 256, 2)
      else if base + 15 * t.n ≤ pa ∧ pa < base + 15 * t.n + 12 * t.rows then some (k, t, (pa - base - 15 * t.n) / 12, 2)
      else none

/-- The slot of the newest record: A where its sequence number is even (R241). -/
def recordSlot (s : State) : Option Nat := s.run.recordSeq.map slotOf

/-- The step-record tensors of a stack, in region-table order (R420). -/
def recordRegions (s : State) (n : Nat) : List Region :=
  match s.run.plan with
  | none => []
  | some p => p.regions.filter fun r => r.kind == 4 && (match placeOf r.base with | .fast st _ => st == n | _ => false)

/-- Copies one word of a step-record tensor back from the newest record. -/
def restoreRecordWord (s : State) (n pa : Nat) : State :=
  match recordSlot s with
  | none => s
  | some slot =>
    let go := (recordRegions s n).foldl (fun (acc : Nat × Option Nat) r =>
      if r.base ≤ pa ∧ pa < r.base + r.length then (acc.1 + r.length, some (acc.1 + (pa - r.base))) else (acc.1 + r.length, acc.2))
      (0, none)
    match go.2 with
    | none => s
    | some off => copyBytes s (denseAddr n (slot + 0x100000 + off / 4 * 4)) (pa / 4 * 4) 4

/-! The image of a reflection (R426). -/

/-- Bytes of a tensor in the image. -/
def tensorImageSize (t : TensorDesc) : Nat := 11 * t.n + 12 * t.rows

/-- The slot image comes first. -/
def slotImageSize : Nat := 0x8000000

/-- Image size of a stack. -/
def imageSize (prog : List TensorDesc) : Nat := slotImageSize + (prog.map tensorImageSize).sum

/-- Offset in the image of tensor k. -/
def tensorOffset (prog : List TensorDesc) (k : Nat) : Nat := slotImageSize + ((prog.take k).map tensorImageSize).sum

/-- Address in a held reflection of an image offset. -/
def heldAddr (r : Region) (off : Nat) : Nat := r.base + 4096 + off

/-- Offset of shard tag k in a reflection header (R426). -/
def tagAddr (base k : Nat) : Nat := base + 40 + 12 * k

/-- The reflection region that the plan names in a stack. -/
def reflectionRegion (s : State) (n : Nat) : Option Region :=
  s.run.plan.bind fun p => p.regions.find? fun r =>
    r.kind == 8 && (match placeOf r.base with | .dense st _ => st == n | _ => false)

/-- Step that no shard holds (R429). -/
def noStep : Nat := 0xFFFFFFFFFFFFFFFF

/-- Index of a shard's tag: the entry that names it, or the first unused one (SHARD 0 with a tag that names no step). -/
def tagIndex (s : State) (r : Region) (shard : Nat) : Nat :=
  let unused (k : Nat) : Bool := readLe s (tagAddr r.base k) 2 == 0 && readLe s (tagAddr r.base k + 4) 8 == noStep
  let named (k : Nat) : Bool := readLe s (tagAddr r.base k) 2 == shard && !unused k
  (((List.range 100).find? named).or ((List.range 100).find? unused)).getD 99

/-- Writes a shard's tag. -/
def writeTag (s : State) (r : Region) (shard step : Nat) : State :=
  writeBytes s (tagAddr r.base (tagIndex s r shard)) (leBytes 2 shard ++ [0, 0] ++ leBytes 8 step)

/-- The tag of a shard. -/
def tagOf (s : State) (r : Region) (shard : Nat) : Nat := readLe s (tagAddr r.base (tagIndex s r shard) + 4) 8

/-- The shard of the image offset of a held reflection; none in the record at its front. The sender's program is the holder's own
(log 76). -/
def shardAt (prog : List TensorDesc) (off : Nat) : Option Nat :=
  (List.range prog.length).findSome? fun k =>
    match prog[k]? with
    | some t => if tensorOffset prog k ≤ off ∧ off < tensorOffset prog k + tensorImageSize t then some t.shard else none
    | none => none

/-- A word of a held reflection is lost: the tag of its shard is set so that the next REFLECT sends that shard in full (R429). For
a word of the header or of the record every tag is set. -/
def loseReflection (s : State) (n pa : Nat) : State :=
  match reflectionRegion s n with
  | none => s
  | some r =>
    match (if heldAddr r 0 ≤ pa then shardAt (programOf s n) (pa - heldAddr r 0) else none) with
    | some shard => writeTag s r shard noStep
    | none => forEach (List.range 100) (fun s k => writeBytes s (tagAddr r.base k + 4) (leBytes 8 noStep)) s

/-! Ring slots of ingest (R407). -/

/-- Address of a record's ring slot. -/
def recordAddr (e : StreamEntry) (n : Nat) : Nat := e.ring + n % e.rslots * e.rbytes

/-- Training data: the records whose ring slots hold an address are fetched again (R213). -/
def refetchRecords (s : State) (pa : Nat) : State :=
  match s.run.plan with
  | none => s
  | some p =>
    forEach (List.range p.streams.length) (fun s k =>
      match p.streams[k]? with
      | none => s
      | some e => s.modStream k fun x =>
          { x with landed := x.landed.filter fun r => !decide (recordAddr e r ≤ pa ∧ pa < recordAddr e r + e.rbytes) }) s

/-- Restores a lost word of a tier where R213 restores it before the rerun or at the step boundary. -/
def restoreWord (s : State) (pa : Nat) : State :=
  match placeOf pa with
  | .fast n _ =>
    if inPlanRegion pa then s
    else
      match regionKind s pa with
      | some 1 =>
        match tensorAt s n pa with
        | some (_, t, row, 3) => rederiveRows s n t (bankOf s n) (row / 16 * 16) (Nat.min 16 (t.rows - row / 16 * 16))
        | _ => s
      | some 3 => refetchRecords s pa
      | some 4 => restoreRecordWord s n pa
      | _ => s
  | .dense n _ =>
    match tensorAt s n pa with
    | some (k, _, row, arr) => if arr = 2 ∨ arr = b2n (bankOf s n) then
        -- R243: a reflection that cannot be read is the loss of its holder, which ends the run (R431).
        if buddyReachable s then askFetch s n k (row / 16) 1 else loseHolder s
      else s
    | none => match regionKind s pa with
      | some 8 => loseReflection s n pa
      | _ => s
  | _ => s

/-- A word of the plan region is lost: the run ends and the plan is released (R213). -/
def losePlanWord (s : State) : State :=
  if s.run.plan.isNone then s
  else
    match s.glb.state with
    | .ready => releasePlan s
    | .running => endRun { s with run := { s.run with releaseAtResume := true } }
    | .quiesced => endRun { s with run := { s.run with releaseAtResume := true } }
    | _ => s

/-- Words lost since the last step boundary are restored (R214). -/
def restoreLost (s : State) : State :=
  forEach s.run.lostWords restoreWord { s with run := { s.run with lostWords := [] } }

end Sys2Proof.Machine
end

