-- ==== Sys2Proof/Machine/Codec.lean ====
section
/-!
DEFINITION. The gradient and traffic codec: blocks (R314 to R316), planes and their prefix codes (R317 to R319), the raw
fallback (R321), decoding with its checks (R322, R323), and the codec counters (R331).
-/
namespace Sys2Proof.Machine

/-- Element width of a kind (R318). -/
def kindWidth (kind : Nat) : Nat := [2, 1, 1, 2, 1, 4, 1, 1].getD kind 1

/-- Planes of the kinds before a kind. -/
def planeBase (kind : Nat) : Nat := [0, 2, 3, 4, 6, 7, 11, 12].getD kind 0

/-- The length array of a plane of a kind in a generation held. -/
def planeLengths (s : State) (gen kind plane : Nat) : Option (List Nat) :=
  (s.fw.gens.find? fun g => g.gen == gen).bind fun g => g.lengths[planeBase kind + plane]?

/-! ### Prefix codes -/

/-- Codes of length l, from the next code on: symbol, length, code; and the next code (R317). -/
def codesOfLength (len : List Nat) (l next : Nat) : List (Nat × Nat × Nat) × Nat :=
  (List.range len.length).foldl
    (fun acc s => if len.getD s 0 = l then (acc.1 ++ [(s, l, acc.2)], acc.2 + 1) else acc) ([], next)

/-- assign_codes of R317: symbol, length and code of every symbol that has one. -/
def assignCodes (len : List Nat) : List (Nat × Nat × Nat) :=
  ((List.range 15).foldl
    (fun (acc : List (Nat × Nat × Nat) × Nat) k =>
      let r := codesOfLength len (k + 1) acc.2
      (acc.1 ++ r.1, r.2 * 2)) ([], 0)).1

/-- The bits of a code, most significant first. -/
def codeBits (l code : Nat) : List Bool := (List.range l).map fun i => code.testBit (l - 1 - i)

/-- Bits packed into bytes from bit 0 upwards; the last byte is filled with 0. The number of bits is the fuel. -/
def packBits : Nat → List Bool → List Byte
  | 0, _ => []
  | n + 1, bs =>
    if bs.isEmpty then []
    else BitVec.ofNat 8 ((List.range 8).foldl (fun a i => a + b2n (bs.getD i false) * 2 ^ i) 0) :: packBits n (bs.drop 8)

/-- The bits of bytes, bit 0 first. -/
def unpackBits (bs : List Byte) : List Bool := bs.flatMap fun b => (List.range 8).map fun i => b.getLsbD i

/-! ### Encoding -/

/-- Run symbols of a run of r zero bytes: those that have codes, largest first; then literals (R319). -/
def runSymbols (len : List Nat) (r : Nat) : List Nat :=
  let go := (List.range 16).foldl
    (fun (acc : List Nat × Nat) k =>
      let j := 15 - k
      let size := 2 ^ (j + 1)
      if len.getD (256 + j) 0 = 0 then acc else (acc.1 ++ List.replicate (acc.2 / size) (256 + j), acc.2 % size)) ([], r)
  go.1 ++ List.replicate go.2 0

/-- Symbols of a plane; `run` zero bytes stand before the rest. -/
def planeSymbols (len : List Nat) : Nat → List Byte → List Nat
  | run, [] => runSymbols len run
  | run, b :: r => if b = 0 then planeSymbols len (run + 1) r else runSymbols len run ++ b.toNat :: planeSymbols len 0 r

/-- A coded plane, where every symbol that it needs has a code. -/
def encodePlane (len : List Nat) (bs : List Byte) : Option (List Byte) :=
  let codes := assignCodes len
  let syms := planeSymbols len 0 bs
  if syms.all fun y => len.getD y 0 != 0 then
    let out := syms.flatMap fun y => match codes.find? fun c => c.1 == y with | some c => codeBits c.2.1 c.2.2 | none => []
    some (packBits out.length out)
  else none

/-- Byte k of every element. -/
def planeOf (w k : Nat) (bs : List Byte) : List Byte := (List.range (bs.length / w)).map fun i => bs.getD (i * w + k) 0

/-- The 16 bytes of a block header (R314). -/
def blockHeader (mode kind gen ulen clen crc : Nat) : List Byte :=
  [BitVec.ofNat 8 (mode + 4 * kind), BitVec.ofNat 8 gen] ++ leBytes 4 ulen ++ leBytes 4 clen ++ leBytes 4 crc ++ [0, 0]

/-- A raw block. -/
def rawBlock (kind : Nat) (bs : List Byte) : List Byte := blockHeader 0 kind 0 bs.length bs.length (crc32c bs) ++ bs

/-- The coded planes of a block, where it can be coded (R321). -/
def codedPlanes (s : State) (gen kind : Nat) (bs : List Byte) : Option (List (List Byte)) :=
  let w := kindWidth kind
  if gen = 0 ∨ bs.length % w ≠ 0 then none
  else (List.range w).mapM fun k => (planeLengths s gen kind k).bind fun len => encodePlane len (planeOf w k bs)

/-- A block of 1 to 65,536 bytes: header and payload, and whether it is raw (R321). -/
def encodeBlock (s : State) (gen kind : Nat) (bs : List Byte) : List Byte × Bool :=
  match codedPlanes s gen kind bs with
  | none => (rawBlock kind bs, true)
  | some ps =>
    let payload := (ps.flatMap fun p => leBytes 4 p.length) ++ ps.flatten
    if payload.length ≥ bs.length then (rawBlock kind bs, true)
    else (blockHeader 1 kind gen bs.length payload.length (crc32c bs) ++ payload, false)

/-- Bytes up to the next multiple of 64. -/
def pad64 (n : Nat) : Nat := (64 - n % 64) % 64

/-- Counts blocks encoded. -/
def countBlock (s : State) (raw : Bool) : State :=
  { s with cdc := { s.cdc with blocks := satInc 0xFFFFFFFF s.cdc.blocks
                               raw := if raw then satInc 0xFFFFFFFF s.cdc.raw else s.cdc.raw } }

/-! ### Decoding -/

/-- Why a block is not decoded: its status, and its counter (0 generation, 1 length, 2 malformed). -/
structure Erasure where
  status : Nat
  counter : Nat
deriving DecidableEq, Repr

def erasedGen : Erasure := { status := 1, counter := 0 }
def erasedLen : Erasure := { status := 2, counter := 1 }
def erasedMal : Erasure := { status := 3, counter := 2 }

/-- Reads one symbol: bits are added to the code read so far, of length l, until they match; n more bits may be read. -/
def readSymbol (codes : List (Nat × Nat × Nat)) : Nat → Nat → Nat → List Bool → Except Erasure (Nat × List Bool)
  | 0, _, _, _ => .error erasedMal
  | _ + 1, _, _, [] => .error erasedLen
  | n + 1, l, code, b :: r =>
    match codes.find? fun c => c.2.1 == l + 1 && c.2.2 == 2 * code + b2n b with
    | some c => .ok (c.1, r)
    | none => readSymbol codes n (l + 1) (2 * code + b2n b) r

/-- decode_plane of R323; the number of bytes still to come is the fuel, for every symbol gives at least one. -/
def decodeBits (codes : List (Nat × Nat × Nat)) : Nat → Nat → List Bool → Except Erasure (List Byte)
  | fuel, n, bits =>
    if n = 0 then (if decide (8 ≤ bits.length) || bits.any id then .error erasedLen else .ok [])
    else
      match fuel with
      | 0 => .error erasedLen
      | fuel + 1 =>
        match readSymbol codes 15 0 0 bits with
        | .error e => .error e
        | .ok (y, r) =>
          let out : List Byte := if y < 256 then [BitVec.ofNat 8 y] else List.replicate (2 ^ (y - 255)) 0
          if out.length > n then .error erasedLen
          else
            match decodeBits codes fuel (n - out.length) r with
            | .error e => .error e
            | .ok bs => .ok (out ++ bs)

/-- Cuts a byte string into parts of the given lengths. -/
def cutParts : List Nat → List Byte → List (List Byte)
  | [], _ => []
  | n :: r, bs => bs.take n :: cutParts r (bs.drop n)

/-- Header fields of a block. -/
structure BlockHead where
  mode : Nat
  kind : Nat
  gen : Nat
  ulen : Nat
  clen : Nat
  crc : Nat
  resv : Bool
deriving DecidableEq, Repr

def readHead (h : List Byte) : BlockHead :=
  let f (i n : Nat) : Nat := leNat ((h.drop i).take n)
  { mode := bits (f 0 1) 1 0, kind := bits (f 0 1) 4 2, gen := f 1 1, ulen := f 2 4, clen := f 6 4, crc := f 10 4,
    resv := decide (bits (f 0 1) 7 5 ≠ 0 ∨ f 14 2 ≠ 0) }

/-- The checks of R322 on a block of which `room` bytes lie within the input, `pay` its payload: the decoded bytes. -/
def decodeBlock (s : State) (h : BlockHead) (room : Nat) (pay : List Byte) : Except Erasure (List Byte) :=
  let w := kindWidth h.kind
  if h.mode > 1 ∨ h.resv then .error erasedMal
  else if h.ulen = 0 ∨ h.ulen > 65536 ∨ h.clen > 65536 + 4 * w ∨ 16 + h.clen > room then .error erasedMal
  else if h.mode = 0 then
    if h.gen ≠ 0 then .error erasedMal
    else if h.clen ≠ h.ulen then .error erasedLen
    else if crc32c (pay.take h.clen) ≠ h.crc then .error erasedMal
    else .ok (pay.take h.clen)
  else if !(s.fw.gens.any fun g => g.gen == h.gen) then .error erasedGen
  else
    let plens := (List.range w).map fun k => leNat ((pay.drop (4 * k)).take 4)
    if h.ulen % w ≠ 0 ∨ h.clen ≠ 4 * w + plens.sum then .error erasedMal
    else
      let parts := cutParts plens ((pay.take h.clen).drop (4 * w))
      match (List.range w).mapM fun k =>
        decodeBits (assignCodes ((planeLengths s h.gen h.kind k).getD [])) (h.ulen / w) (h.ulen / w) (unpackBits (parts.getD k [])) with
      | .error e => .error e
      | .ok planes =>
        let out := (List.range (h.ulen / w)).flatMap fun i => planes.map fun p => p.getD i 0
        if crc32c out ≠ h.crc then .error erasedMal else .ok out

/-- Check 2 fails: the next block cannot be found. -/
def headLost (h : BlockHead) (room : Nat) : Bool :=
  !(decide (h.mode > 1) || h.resv) && decide (h.ulen = 0 ∨ h.ulen > 65536 ∨ h.clen > 65536 + 4 * kindWidth h.kind ∨ 16 + h.clen > room)

/-- Counts an erasure, and records it as the most recent (R331): source 0 cluster, 1 Fuelle, 2 reflection. -/
def countErasure (s : State) (source unit : Nat) (h : BlockHead) (e : Erasure) : State :=
  let c := s.cdc
  { s with cdc := { c with
      eraseGen := if e.counter = 0 then satInc 0xFFFFFFFF c.eraseGen else c.eraseGen
      eraseLen := if e.counter = 1 then satInc 0xFFFFFFFF c.eraseLen else c.eraseLen
      eraseMal := if e.counter = 2 then satInc 0xFFFFFFFF c.eraseMal else c.eraseMal
      last := BitVec.ofNat 32 (source * 2 ^ 30 + unit * 2 ^ 24 + h.gen * 2 ^ 16 + e.status * 2 ^ 8 + h.kind) } }

/-- An erasure of plan traffic (R328): the step is tainted; where its rerun meets one again, the run ends. -/
def taintErasure (s : State) : State :=
  if !runInProgress s then s
  else if s.run.erasedStep = some s.run.step then endRun s
  else taint { s with run := { s.run with erasedStep := some s.run.step } }

/-- The generation that a session settles on: the highest that both ends hold, 0 with none in common (R325). -/
def settleGen (own peer : List Nat) : Nat := (own.filter peer.contains).foldl Nat.max 0

end Sys2Proof.Machine
end

