-- ==== Sys2Proof/Machine/Chain.lean ====
section
/-!
DEFINITION. Chains of running sums (R123 to R126, R191 to R193): the records, the chain maps and the chain buffers.
-/
namespace Sys2Proof.Machine

/-- A record is written to its slot of a core's chain buffer (R124). One that replaces an unused record is marked (R125). -/
def putRecord (x : Core) (slot : Nat) (record : List Byte) : Core :=
  let flag := match tfind x.chain slot with | some r => (if r.1 = 1 then 0 else 2) | none => 0
  { x with chain := tput x.chain slot (flag, record) }

/-- The records that have arrived in the cycle of a bundle in progress are written at the end of the cycle (R124). -/
def landRecords (x : Core) : Core :=
  match x.bun with
  | none => x
  | some b => { b.records.foldl (fun x r => putRecord x r.1 r.2) x with bun := some { b with records := [] } }

/-- A record arrives at a core: it is written at the end of this cycle (R124). -/
def takeRecord (x : Core) (slot : Nat) (record : List Byte) : Core :=
  match x.bun with
  | none => putRecord x slot record
  | some b => { x with bun := some { b with records := b.records ++ [(slot, record)] } }

/-- A record arrives at a core's chain buffer and raises the token counter that the receive map names (R124). DESIGN CHOICE (log 79):
the entry's CORE decides, whatever DEST the record carries; for CORE 12 to 15 this is a core of the next cluster, or none. -/
def chainArrive (s : State) (g : Nat) (record : List Byte) : State :=
  let head := leNat (record.take 8)
  let chain := bits head 15 0
  let hop := bits head 23 16
  match (s.cluster g).recvMap.find? fun m => bits m.toNat 15 0 == chain && bits m.toNat 23 16 == hop with
  | none => enginePlanFault s g 9 0 4
  | some m =>
    let c := 12 * g + bits m.toNat 27 24
    let slot := 64 * bits head 31 30 + bits head 29 24
    addToken (if c < 480 then s.modCore c fun x => takeRecord x slot record else s) c (bits m.toNat 33 28)

/-- A chain DRAIN of core c, array a, entry e: the record of R123 goes to the destination's cluster (R192, R193). DESIGN CHOICE (log
79): a DEST of 480 to 511, which names no core, raises CHAIN_MAP at the sending cluster. -/
def chainSend (s : State) (c a e cls : Nat) (vals : List W32) : State :=
  let g := c / 12
  match (s.cluster g).sendMap[4 * (c % 12) + a]? with
  | none => enginePlanFault s g 9 0 4
  | some m =>
    let m := m.toNat
    let entry := if bit m 33 then bits m 39 34 else e
    let arr := if bit m 33 then bits m 41 40 else a
    let dest := bits m 32 24
    let head := bits m 15 0 + bits m 23 16 * 2 ^ 16 + entry * 2 ^ 24 + arr * 2 ^ 30 + cls * 2 ^ 32 + dest * 2 ^ 34
    let record := leBytes 8 head ++ vals.flatMap fun v => leBytes 4 v.toNat
    if dest ≥ 480 then enginePlanFault s g 9 0 4 else chainArrive s (dest / 12) record

end Sys2Proof.Machine
end

