-- ==== Sys2Proof/Machine/Engine.lean ====
section
/-!
DEFINITION. What every cluster engine shares (R164 to R173): posted lists, the descriptor header, engine tokens, the
checks at the start of a descriptor and its completion.
-/
namespace Sys2Proof.Machine

/-- An engine of a cluster. -/
def State.engine (s : State) (g e : Nat) : Engine := tget .reset (s.cluster g).engines e
def State.modEngine (s : State) (g e : Nat) (f : Engine → Engine) : State :=
  s.modCluster g fun k => { k with engines := tmod .reset k.engines e f }

/-- Opcodes of an engine beside NOP (R164). -/
def engineOps (e : Nat) : List Nat :=
  if e ≤ 2 then [1, 2, 3] else if e = 3 ∨ e = 4 then [1] else if e = 8 then [1, 2, 3, 4, 5] else [1, 2]

/-- The 64 bytes of a descriptor as a number (R167). -/
def descAt (s : State) (g off : Nat) : Nat := readLe s (clusterAddr g off) 64

/-- Bits [hi:lo] of the body field that starts at byte n of a descriptor. -/
def dbits (d byte hi lo : Nat) : Nat := bits (d >>> (8 * byte)) hi lo

def dOp (d : Nat) : Nat := bits d 7 0
def dLast (d : Nat) : Bool := bit d 8
def dWaitTok (d : Nat) : Nat := bits d 14 12
def dWaitCount (d : Nat) : Nat := bits d 31 16

/-- The header is valid (R167, R170). -/
def headerValid (e d : Nat) : Bool :=
  (dOp d == 0 || (engineOps e).contains (dOp d)) && !bit d 11 && !bit d 15 && !bit d 47 && decide (bits d 63 55 = 0) &&
  decide (bits d 40 32 < 480 ∧ bits d 51 48 ≤ 9)

/-- Adds 1 to an engine token counter (R168). DESIGN CHOICE (log 79): TOKEN_OVF is a fault of the engine whose counter overflows, with
the descriptor that it runs or last ran. -/
def addEToken (s : State) (g e t : Nat) : State :=
  let x := s.engine g e
  let v := tget 0 x.tokens (t % 8)
  if v ≥ 65535 then enginePlanFault s g e x.cur 5 else s.modEngine g e fun x => { x with tokens := tput x.tokens (t % 8) (v + 1) }

/-- The offset of the next descriptor of an engine. -/
def headDesc (s : State) (g e : Nat) : Option Nat := (s.engine g e).lists.head?

/-- The wait of a descriptor is met (R168). -/
def waitMet (s : State) (g e d : Nat) : Bool :=
  decide (dWaitCount d = 0) || decide (tget 0 (s.engine g e).tokens (dWaitTok d) ≥ dWaitCount d)

/-- A descriptor starts: its count is consumed. -/
def startDesc (s : State) (g e off d : Nat) : State :=
  s.modEngine g e fun x =>
    { x with
      tokens := if dWaitCount d = 0 then x.tokens else tput x.tokens (dWaitTok d) (tget 0 x.tokens (dWaitTok d) - dWaitCount d)
      waiting := none, cur := off }

/-- A descriptor waits (R168). -/
def holdDesc (s : State) (g e : Nat) : State :=
  s.modEngine g e fun x => { x with waiting := some (x.waiting.getD s.now) }

/-- A descriptor ends: the list moves on and the notifications are sent (R167, R171). An engine that a notification
reaches is named so that its NOP descriptors run. -/
def endDesc (s : State) (g e off d : Nat) : State :=
  let s := s.modEngine g e fun x =>
    { x with
      lists := match x.lists with
        | [] => []
        | _ :: r => if dLast d then r else (off + 64) :: r
      waiting := none, desc := 0, work := none, operands := []
      done := satInc 0xFFFF x.done }
  let s := if bit d 9 then addToken s (bits d 40 32) (bits d 46 41) else s
  if bit d 10 then addEToken s g (bits d 51 48) (bits d 54 52) else s

/-- Runs the NOP descriptors at the heads of the engines of a cluster whose waits are met (R167, R173). The fuel is the
number of descriptors. -/
def runNops (g : Nat) : Nat → State → State
  | 0, s => s
  | n + 1, s =>
    let ready (e : Nat) : Bool :=
      engineRuns s g e && (s.engine g e).desc == 0 &&
      (match headDesc s g e with
       | some off => decide (off + 64 ≤ 0x3000000) && dOp (descAt s g off) == 0 && headerValid e (descAt s g off) && waitMet s g e (descAt s g off)
       | none => false)
    match (List.range 10).find? ready with
    | none => s
    | some e =>
      let off := (headDesc s g e).getD 0
      let d := descAt s g off
      runNops g n (endDesc (startDesc s g e off d) g e off d)

/-- NOP descriptors that one event can set off. -/
def nopFuel : Nat := 65536

/-- KICK posts a list (R166). -/
def postList (s : State) (g e off : Nat) : State :=
  let off := off / 64 * 64
  runNops g nopFuel (s.modEngine g e fun x => { x with lists := x.lists ++ [off] })

/-- Runs the NOP descriptors of every cluster, for those that became ready while their engine was parked or held (R173). -/
def runAllNops (s : State) : State := forEach (List.range 40) (fun s g => runNops g nopFuel s) s

end Sys2Proof.Machine
end

