-- ==== Sys2Proof/Machine/Flags.lean ====
section
/-!
DEFINITION. The flags: the sticky overflow flag of R62 and R64, and the row-status bits of R67 that a set of converted
values gives.
-/
namespace Sys2Proof.Machine

/-- A gradient-class conversion sets the sticky flag during COMPUTE and REDUCE (R51, R64). -/
def raiseOvf (s : State) (o : Bool) : State :=
  if o ∧ s.run.phase ≤ 1 then { s with glb := { s.glb with lsOvf := true } } else s

/-- The status bits of a list of conversions. -/
def statusOf (l : List (Nat × Status)) : Status := l.foldl (fun a r => a.or r.2) .none

/-- Conversion in an epilogue: with output FP32 there is none, and the gradient class reports ±∞ and NaN (R131). -/
def epilogueConvert (f : NumFmt) (gclass : Bool) (v : W32) : Nat × Status :=
  if f = .fp32 then
    let x := ofF32 v
    (v.toNat, { Status.none with nan := x.isNan, ovf := gclass && !x.isFinite })
  else convertNum f gclass (ofF32 v)

/-- Result of an arithmetic op of R138 rounded once to a format: SAT where it saturates, NAN where it is the canonical
NaN (R139). A NaN is no saturation. -/
def roundTo (f : NumFmt) (x : Num) : Nat × Status :=
  let (c, st) := convertNum f false x
  (c, { st with ovf := false, sat := st.sat && !x.isNan })

end Sys2Proof.Machine
end

