-- ==== Sys2Proof/Machine/Bundle.lean ====
section
/-!
DEFINITION. Issue of bundles: the fetch (R98, R101), the checks of R88, R132 and R165, waits (R92), repeats, loops and
branches (R89, R90), and the form of every core op: one slot in one repeat of the bundle in progress (log 18).
-/
namespace Sys2Proof.Machine

/-! ### Fetch -/

/-- A byte of the stream as the fetch port reads it: what a write of the last four cycles replaced may be seen in its
place (R101). Of the engine port's writes these are the ones that no wait of the core has followed (log 74). -/
def fetchByte (s : State) (c a : Nat) (x : Core) : Byte :=
  let late := x.stores.filter fun r => decide (x.cyc < r.land + 4) && r.tick == s.now && overlaps 0x200000 a 1 r.addr r.old.length
  match late with
  | [] => readByte s (cacheAddr c a)
  | r :: _ =>
    if (Config.freeByte s.fresh (0x200000 * (r.land + 1) + a)).getLsbD 0 then r.before a else readByte s (cacheAddr c a)

/-- The bundle at the PC. -/
def fetch (s : State) (c : Nat) : BitVec 1024 :=
  let x := s.core c
  BitVec.ofNat 1024 (leNat ((List.range 128).map fun i => fetchByte s c (x.pc * 128 + i) x))

/-! ### Validity (R78, R84, R85, R87, R88, R132, R144 to R150, R165) -/

/-- Formats of a matrix op (R78). -/
def matrixFormats (op fa fw : Nat) : Bool :=
  let pair8 := decide ((fa = 2 ∨ fa = 3) ∧ (fw = 2 ∨ fw = 3))
  if op = 0x00 then true
  else if op = 0x01 then decide (fw ≤ 5)
  else if op = 0x10 then decide (fa = fw ∧ fa ≤ 5) || pair8
  else if op = 0x11 ∨ op = 0x12 ∨ op = 0x13 ∨ op = 0x14 then decide (fa = fw ∧ fa ≤ 3) || pair8
  else if op = 0x15 then decide (fa = 5 ∧ fw = 5)
  else if op = 0x16 then decide (fa = fw ∧ (fa ≤ 3 ∨ fa = 5))
  else decide (fa = 0 ∧ fw = 0)

def matrixOps : List Nat := [0x00, 0x01, 0x10, 0x11, 0x12, 0x13, 0x14, 0x15, 0x16, 0x20, 0x21]

/-- A matrix slot is valid, the gradient operand of its epilogue set included (R132). -/
def matrixValid (x : Core) (ldOn : Bool) (w : Nat) : Bool :=
  let op := opOf w
  let ctl := epiCtl x (bits w 76 74)
  let grad := bit ctl 0
  let xop := bits w 80 78
  matrixOps.contains op && decide (bits w 127 82 = 0) && matrixFormats op (bits w 21 19) (bits w 24 22) &&
  (!(op == 0 && bit w 31) || decide (bits w 24 22 ≤ 5)) &&
  (if op = 0x16 then decide (xop ≤ 5) else if op = 0x21 then decide (xop ≤ 2) else decide (xop = 0)) &&
  (!(op == 0x20 && !bit w 77) ||
    (decide (bits ctl 3 1 ≤ 5) &&
      (!grad || (decide (bits ctl 11 10 ≤ 2) && decide (bits ctl 14 12 ≤ 3) && !(ldOn && bits ctl 11 10 != 0)))))

/-- Formats of a vector op: a set of codes, or none where FMT is not decoded. -/
def vectorFormats (op : Nat) : Option (List Nat) :=
  if op ∈ [0x01, 0x02, 0x03, 0x05, 0x06, 0x07, 0x08, 0x09, 0x0A, 0x15] then some [0, 1, 2, 3, 6]
  else if op ∈ [0x04, 0x0B, 0x0C, 0x0D, 0x0E, 0x0F, 0x10, 0x11, 0x12, 0x13, 0x14, 0x29, 0x32, 0x41, 0x42] then some [0, 1, 2, 3]
  else if op ∈ [0x16, 0x17, 0x18, 0x20, 0x21, 0x22, 0x23, 0x24, 0x40, 0x43, 0x44, 0x45, 0x46, 0x70, 0x71, 0x72, 0x73, 0x74, 0x77]
    then some [0, 1, 2, 3, 5, 6]
  else if op ∈ [0x19, 0x1A, 0x1B, 0x1C, 0x76] then some [6]
  else if op ∈ [0x2B, 0x50, 0x51, 0x52, 0x53, 0x75] then some [0, 1, 6]
  else if op = 0x30 then some [0, 1, 2, 3, 4, 5, 6]
  else if op ∈ [0x31, 0x60, 0x61, 0x63, 0x62] then some [0, 1]
  else none

def vectorOps : List Nat :=
  (List.range 0x1D) ++ (List.range 12).map (0x20 + ·) ++ [0x30, 0x31, 0x32] ++ (List.range 7).map (0x40 + ·) ++
  (List.range 4).map (0x50 + ·) ++ (List.range 4).map (0x60 + ·) ++ (List.range 8).map (0x70 + ·)

/-- A vector slot is valid. -/
def vectorValid (w : Nat) : Bool :=
  let op := opOf w
  let f := bits w 51 49
  let f2 := bits w 54 52
  vectorOps.contains op && decide (bits w 127 92 = 0) &&
  (match vectorFormats op with | some l => l.contains f | none => true) &&
  (!veToP op || decide (bits w 21 17 = 0)) &&
  (op != 0x30 || decide (f2 ≤ 6 ∧ f ≠ f2)) && (op != 0x31 || decide (1 ≤ f2 ∧ f2 ≤ 5)) &&
  (!(decide (0x60 ≤ op ∧ op ≤ 0x63)) || decide (f2 = f)) && (!(op == 0x61 || op == 0x62) || decide (bits w 60 55 % 2 = 0))

/-- A load slot is valid (R84, R85). -/
def loadValid (w : Nat) : Bool :=
  let op := opOf w
  decide (op ≤ 8) && decide (bits w 95 68 = 0) && (!(op == 7 || op == 8) || decide (bits w 66 64 ≤ 6))

def controlOps : List Nat :=
  [0x00, 0x01, 0x02, 0x03, 0x08, 0x09, 0x0A, 0x0B, 0x0C, 0x0D, 0x0E, 0x0F, 0x10, 0x11, 0x12, 0x13, 0x18, 0x19, 0x1A, 0x20, 0x21,
   0x22, 0x28, 0x29, 0x30, 0x31, 0x32, 0x38, 0x39, 0x3A]

/-- A control slot is valid (R86, R87, R88, R165). -/
def controlValid (w : Nat) : Bool :=
  let op := opOf w
  controlOps.contains op && decide (bits w 95 71 = 0) && (op != 2 || decide (bits w 45 30 ≠ 0)) &&
  (op != 0x38 || decide (bits w 33 30 ≤ 9))

/-- The checks made at issue. -/
def bundleValid (x : Core) (raw : BitVec 1024) : Bool :=
  let h := header raw
  decide (bits h 3 0 = 1) && decide (bits h 31 30 = 0) && decide (bits h 63 56 = 0) && decide (waitCause raw ≤ 5) &&
  ((List.range 8).all fun i =>
    !slotEnabled raw i ||
    (let w := slotWord raw i
     if i < 4 then matrixValid x (slotEnabled raw 6) w
     else if i < 6 then vectorValid w
     else if i = 6 then loadValid w
     else controlValid w)) &&
  !dstClash raw

/-! ### Issue -/

/-- What the next bundle of a core comes to. -/
inductive Issue where
  /-- Nothing issues: the core does not run, waits, or its bundle is not predicated on. -/
  | stay
  | ready (s : State)
  | faulted (s : State)

/-- LOOP would open a fifth nested loop (R90). DESIGN CHOICE (log 75): spec/ does not say whether a LOOP with a count of 0 under four
open loops raises LOOP_DEPTH; it opens no loop, so it raises none here, and the body is skipped. -/
def loopTooDeep (x : Core) (c : Nat) (raw : BitVec 1024) : Bool :=
  let w := slotWord raw 7
  slotEnabled raw 7 && opOf w == 2 && (readP x c (predOf w)).getLsbD 0 && decide (x.loops.length ≥ 4) &&
  decide ((readS x c (bits w 23 18)).toNat % 2 ^ 32 ≠ 0)

/-- An enabled slot decodes PRED: all but MOVSV and MOVVS (R150). -/
def readsPred (raw : BitVec 1024) (i : Nat) : Bool :=
  let op := opOf (slotWord raw i)
  slotEnabled raw i && !((i == 4 || i == 5) && (op == 0x72 || op == 0x73))

/-- The bundle starts: its predicates are read; a KICK holds issue until earlier stores have written (R89, R100). -/
def beginBundle (s : State) (c : Nat) (raw : BitVec 1024) : State :=
  let kick := slotEnabled raw 7 && opOf (slotWord raw 7) == 0x38
  let s := if kick then drainFlight c (fun f => match f.payload with | .cache _ _ => true | _ => false) s else s
  let x := s.core c
  let pb (i : Nat) : Nat := if (readP x c (predOf (slotWord raw i))).getLsbD 0 then 2 ^ i else 0
  let b : Bun :=
    { raw := raw, rep := 0, slotsDone := [], preds := ((List.range 8).map pb).sum, mask0 := readP x c (predOf (slotWord raw 4)),
      mask1 := readP x c (predOf (slotWord raw 5)), spoiled := false, loop := none, branch := none, final := false, fence := false, drained := [],
      arrived := [], records := [] }
  let s := s.setCore c (prune { x with bun := some b, issued := x.issued + 1, waiting := none })
  let s := { s with fresh := s.fresh + 1 }
  let x := s.core c
  spoil s c (hazP x (bpredOf raw) ++ ((List.range 8).filter (readsPred raw)).flatMap fun i => hazP x (predOf (slotWord raw i)))

/-- A bundle in progress of core c has a KICK to engine e that has still to post its list. -/
def kickPending (s : State) (e c : Nat) : Bool :=
  match (s.core c).bun with
  | some b =>
    let w := slotWord b.raw 7
    slotEnabled b.raw 7 && opOf w == 0x38 && decide (bits w 33 30 = e) && b.preds.testBit 7 && b.rep == 0 && !b.slotsDone.contains 7
  | none => false

/-- A KICK to an engine whose queue is full, the lists of bundles that have issued counted, holds its bundle (R166). -/
def kickHeld (s : State) (c : Nat) (raw : BitVec 1024) : Bool :=
  let w := slotWord raw 7
  let e := bits w 33 30
  slotEnabled raw 7 && opOf w == 0x38 && (readP (s.core c) c (predOf w)).getLsbD 0 &&
  decide ((tget Engine.reset (s.cluster (c / 12)).engines e).lists.length +
    ((List.range 12).filter fun k => kickPending s e (c / 12 * 12 + k)).length ≥ 8)

/-- The bundle at the PC needs a wait that has not been made (R92). -/
def mustWait (x : Core) (raw : BitVec 1024) : Bool := waitCount raw != 0 && !x.waited

/-- The checks and holds of a bundle whose wait is met, and its issue. -/
def tryIssue (s : State) (c : Nat) (raw : BitVec 1024) : Issue :=
  let x := s.core c
  if (readP x c (bpredOf raw)).getLsbD 0 = false then .stay
  else if !bundleValid x raw then .faulted (corePlanFault s c 1 x.pc 0)
  else if loopTooDeep x c raw then .faulted (corePlanFault s c 2 x.pc 0)
  else if kickHeld s c raw then .stay
  else .ready (beginBundle s c raw)

/-- Issues the bundle at the PC, or goes on with the one in progress. In QUIESCED only a bundle in progress ends
(R108). -/
def issue (s : State) (c : Nat) : Issue :=
  let x := s.core c
  if !coreRuns s c then .stay
  else if x.bun.isSome then .ready s
  else if s.glb.state = .quiesced then .stay
  else
    let raw := fetch s c
    if mustWait x raw then .stay else tryIssue s c raw

/-! ### The end of a bundle (R80, R90) -/

/-- Ends loop bodies whose last bundle is at `p`: the next PC and the loop stack. -/
def loopEnd : Nat → Nat → List LoopEntry → Nat × List LoopEntry
  | 0, p, ls => ((p + 1) % 16384, ls)
  | _ + 1, p, [] => ((p + 1) % 16384, [])
  | n + 1, p, l :: r =>
    if l.last = p then (if l.count > 1 then (l.first, { l with count := l.count - 1 } :: r) else loopEnd n p r)
    else ((p + 1) % 16384, l :: r)

/-- The loops that hold a target; a body may run over the end of the stream's 16,384 bundles. -/
def leaveLoops (target : Nat) : List LoopEntry → List LoopEntry
  | [] => []
  | l :: r =>
    if (target + 16384 - l.first) % 16384 ≤ (l.last + 16384 - l.first) % 16384 then l :: r else leaveLoops target r

/-- Where the stream goes after the bundle at `p`: PC, loop stack, branches still to take effect (R90). -/
def nextBundle (x : Core) (p : Nat) (loop : Option (Nat × Nat)) (branch : Option Nat) : Nat × List LoopEntry × List (Nat × Nat) :=
  let aged := x.branches.map fun b => (b.1 - 1, b.2)
  let taken := (aged.filter fun b => b.1 == 0).getLast?
  let rest := (aged.filter fun b => b.1 != 0) ++ (match branch with | some t => [(2, t)] | none => [])
  let pushed : Nat × List LoopEntry :=
    match loop with
    | some (n, count) =>
      if count = 0 then loopEnd 5 ((p + n) % 16384) x.loops
      else ((p + 1) % 16384, { first := (p + 1) % 16384, last := (p + n) % 16384, count := count } :: x.loops)
    | none => loopEnd 5 p x.loops
  match taken with
  | some b =>
    let ls := match loop with | some (_, count) => if count = 0 then x.loops else pushed.2 | none => x.loops
    (b.2, leaveLoops b.2 ls, rest)
  | none => (pushed.1, pushed.2, rest)

/-- A slot of the bundle in progress carries a flag and its predicate is on. -/
def slotSays (b : Bun) (slot n : Nat) : Bool :=
  slotEnabled b.raw slot && b.preds.testBit slot && bit (slotWord b.raw slot) n

/-- The bundle has run its last repeat: tiles swap, KQ advances, the PC moves (R77, R80, R90). Results in flight complete at END,
at FENCE, where the core parks and where its run has ended (R87, R107, R108); a run that must end does so with its last bundle. DESIGN
CHOICE (log 79): where SETTILE or SETKQ and Q_ADV stand in one bundle without a repeat, KQ is set first and then advances. -/
def endBundle (s : State) (c : Nat) (b : Bun) : State :=
  let x := s.core c
  let swap (x : Core) (a : Nat) : Core :=
    if slotSays b a 30 then x.modArray a fun r => { r with active := r.standby, standby := r.active } else x
  let x := (List.range 4).foldl swap x
  let x := if (List.range 4).any fun a => slotSays b a 29 then { x with kq := (x.kq + 1) % 2 ^ 19 } else x
  let (pc, loops, branches) := nextBundle x x.pc b.loop b.branch
  let x := { x with pc := pc, loops := loops, branches := branches, bun := none, waited := false, ended := b.final,
                    past := x.past ++ [(x.issued, x.cyc, b.raw)] }
  let s := s.setCore c x
  let s := if b.spoiled && b.preds.testBit 6 then forEach (incDst b.raw) (fun s d => spoilDst s c d) s else s
  endDue (if b.final || b.fence || !x.active || s.glb.state == .quiesced then settle c s else s)

/-- The slots that act in a repeat: matrix and ld slots in each, ve and ctl slots in repeat 0 (R89). -/
def slotsOf (b : Bun) : List Nat :=
  (List.range 8).filter fun i => slotEnabled b.raw i && (decide (b.rep = 0) || decide (i < 4) || decide (i = 6))

/-- A cycle in which a bundle issues or a repeat runs; at half rate one more counts under thermal (R278). -/
def busyCycle (s : State) (c : Nat) : State :=
  let half := s.pwr.stretch.getLsbD (c / 48)
  s.modCore c fun x => { x with busy := x.busy + 1, idle := if half then tmod 0 x.idle 7 (· + 1) else x.idle }

/-- INC after each repeat (R84). -/
def loadInc (s : State) (c w : Nat) : State :=
  let inc := bits w 57 42
  if inc = 0 then s
  else
    let x := s.core c
    let v := (((readX x c (bits w 16 12)).toNat : Int) + 8 * sext 16 inc).emod (2 ^ 32)
    s.setCore c (writeX x (bits w 16 12) (BitVec.ofNat 32 v.toNat))

/-- A repeat ends: the records of its cycle are written, INC of the ld slot acts, and the cycle passes. -/
def endRepeat (s : State) (c : Nat) (b : Bun) : State :=
  let s := s.modCore c landRecords
  let s := if slotEnabled b.raw 6 && b.preds.testBit 6 then loadInc s c (slotWord b.raw 6) else s
  advance c 1 (busyCycle s c)

/-- Repeats in which no slot acts pass by themselves; the number of repeats left is the fuel. -/
def nextRepeat (c : Nat) : Nat → State → State
  | 0, s => s
  | n + 1, s =>
    match (s.core c).bun with
    | none => s
    | some b =>
      if (slotsOf b).all fun i => b.slotsDone.contains i then
        let s := endRepeat s c b
        if b.rep ≥ repeatOf b.raw then
          match (s.core c).bun with
          | some b => endBundle s c b
          | none => s
        else
          nextRepeat c n (s.modCore c fun x =>
            { x with bun := x.bun.map fun b => { b with rep := b.rep + 1, slotsDone := [] } })
      else s

/-- One slot has acted in this repeat. -/
def endSlot (s : State) (c slot : Nat) : State :=
  let s := s.modCore c fun x => { x with bun := x.bun.map fun b => { b with slotsDone := slot :: b.slotsDone } }
  nextRepeat c 4097 s

/-- The form of a core op: the bundle in progress or at the PC enables the slot with this opcode, and the slot has not
acted in this repeat. The effect `f` takes the state and the slot's bits and holds where the slot's predicate is on
(`masked`: the predicate masks elements and does not gate the slot, R91). -/
def slotOp (c slot op : Nat) (masked : Bool) (f : State → Nat → Bun → State) (s : State) : State :=
  match issue s c with
  | .stay => s
  | .faulted s' => s'
  | .ready s' =>
    match (s'.core c).bun with
    | none => s
    | some b =>
      let w := slotWord b.raw slot
      if (slotsOf b).contains slot ∧ b.slotsDone.contains slot = false ∧ opOf w = op then
        endSlot (if masked || b.preds.testBit slot then f s' w b else s') c slot
      else s

/-! ### Waits and bundles without an op (R78, R91, R92) -/

/-- A bundle whose BPRED is off takes one cycle and does nothing; its wait has been made (R91). -/
def skipBundle (s : State) (c : Nat) : State :=
  let s := spoil s c (hazP (s.core c) (bpredOf (fetch s c)))
  let x := s.core c
  let (pc, loops, branches) := nextBundle x x.pc none none
  let s := s.setCore c { x with pc := pc, loops := loops, branches := branches, waited := false, issued := x.issued + 1, waiting := none }
  advance c 1 (busyCycle s c)

/-- The count of a wait is consumed. What the engine port wrote before the wait's token is visible (R94, log 74). -/
def takeCount (x : Core) (raw : BitVec 1024) : Core :=
  { writeT x (waitToken raw) (readT x (waitToken raw) - waitCount raw) with
    waited := true, waiting := none, stores := x.stores.filter fun r => r.bundle != 0 }

/-- WAIT_TOKEN: where the count of the bundle at the PC is there and the bundle issues, the count is consumed in that cycle; else
the core waits. A bundle that faults or is held by its KICK consumes nothing. -/
def waitStep (c : Nat) (s : State) : State :=
  let x := s.core c
  if !coreRuns s c || x.bun.isSome || s.glb.state == .quiesced then s
  else
    let raw := fetch s c
    if !mustWait x raw then s
    else if readT x (waitToken raw) < waitCount raw then
      (if x.waiting.isSome then s else s.setCore c { x with waiting := some s.now })
    else
      let taken := s.setCore c (takeCount x raw)
      if (readP x c (bpredOf raw)).getLsbD 0 = false then skipBundle taken c
      else
        match tryIssue s c raw with
        | .stay => s.setCore c { x with waiting := none }
        | .faulted s' => s'
        | .ready _ => beginBundle taken c raw

/-- NOP: an enabled slot with opcode 0; in a matrix slot weight parts still load, in the load slot INC still acts. Where
no slot is enabled or BPRED is off, the bundle itself passes. -/
def nopStep (c slot : Nat) (f : State → Nat → Bun → State) (s : State) : State :=
  let x := s.core c
  if coreRuns s c && x.bun.isNone && s.glb.state != .quiesced && !mustWait x (fetch s c) &&
      (readP x c (bpredOf (fetch s c))).getLsbD 0 == false then
    skipBundle s c
  else
    match issue s c with
    | .stay => s
    | .faulted s' => s'
    | .ready s' =>
      match (s'.core c).bun with
      | none => s
      | some b =>
        if (slotsOf b).isEmpty then nextRepeat c 4097 s' else slotOp c slot 0 false f s

end Sys2Proof.Machine
end

