-- ==== Sys2Proof/Machine/Elementary.lean ====
section
/-!
DEFINITION. The functions of R130 and R144 that are not rational: exponential, logarithm, hyperbolic tangent, logistic
function, GELU and SiLU. Values are formed in fixed point with 256 fraction bits, far below the last place of FP32, and
then rounded once. Where spec/ states an accuracy in place of a rounding, the result is moved by a free error within it.
-/
namespace Sys2Proof.Machine

/-- Fraction bits of the fixed-point values. -/
def fixBits : Nat := 256

/-- 1 in fixed point. -/
def fixOne : Int := 2 ^ 256

/-- The natural logarithm of 2 in fixed point. -/
def fixLn2 : Int := 0xb17217f7d1cf79abc9e3b39803f2f6af40f343267298b62d8a0d175b8baafa2c

/-- Product in fixed point, rounded down. -/
def fixMul (a b : Int) : Int := Int.fdiv (a * b) fixOne

/-- Quotient in fixed point, rounded down. -/
def fixDiv (a b : Int) : Int := Int.fdiv (a * fixOne) b

/-- A finite value in fixed point, rounded down; for magnitudes below 2^256. -/
def toFix : Num → Int
  | .fin neg m e => Int.fdiv (signedM neg (m * 2 ^ (e + 256).toNat)) (2 ^ (-(e + 256)).toNat)
  | _ => 0

/-- A fixed-point number times a power of two as a value. -/
def ofFix (x : Int) (k : Int) : Num := .fin (decide (x < 0)) x.natAbs (k - 256)

/-- Horner steps 1 + r/k × (…), from k = n down to 1 inside out. -/
def expHorner : Nat → Nat → Int → Int
  | 0, _, _ => fixOne
  | fuel + 1, k, r => fixOne + Int.fdiv (fixMul r (expHorner fuel (k + 1) r)) k

/-- Exponential of a fixed-point number as mantissa and power of two: argument = k ln 2 + r. -/
def fixExp (x : Int) : Num :=
  let k := Int.fdiv (x + fixLn2 / 2) fixLn2
  let r := x - k * fixLn2
  ofFix (expHorner 60 1 r) k

/-- Exponential of a value, with the limits of R145. -/
def expNum : Num → Num
  | .nan => .nan
  | .inf neg => if neg then .fin false 0 0 else .inf false
  | .fin neg m e =>
    let x : Num := .fin neg m e
    if Num.lt false (.fin false 1 10) x.abs then (if neg then .fin false 1 (-600) else .fin false 1 600)
    else fixExp (toFix x)

/-- FP32 exponential, rounded to nearest even (R70, R158). -/
def exp32 (w : W32) : W32 := toF32 (expNum (ofF32 w))

/-- Sum of z^(2i+1) / (2i+1) for i from n down to 0, z2 = z². -/
def atanhSum : Nat → Nat → Int → Int → Int
  | 0, _, _, _ => 0
  | fuel + 1, k, zp, z2 => Int.fdiv zp k + atanhSum fuel (k + 2) (fixMul zp z2) z2

/-- Natural logarithm. -/
def lnNum : Num → Num
  | .nan => .nan
  | .inf neg => if neg then .nan else .inf false
  | .fin neg m e =>
    if m = 0 then .inf true
    else if neg then .nan
    else
      let l := Nat.log2 m
      let y : Int := toFix (.fin false m (-(l : Int)))
      let z := fixDiv (y - fixOne) (y + fixOne)
      let s := 2 * atanhSum 90 1 z (fixMul z z) + (e + l) * fixLn2
      ofFix s 0

/-- e^(−2|x|)-style helper: exponential of a fixed-point number at most 0, as fixed point. -/
def fixExpNeg (x : Int) : Int :=
  if x < -(400 * fixOne) then 0 else toFix (fixExp x)

/-- Hyperbolic tangent. -/
def tanhNum : Num → Num
  | .nan => .nan
  | .inf neg => .fin neg 1 0
  | .fin neg m e =>
    if m = 0 then .fin neg 0 0
    else
      let x : Num := .fin false m e
      if Num.lt false (.fin false 64 0) x then .fin neg (2 ^ 60 - 1) (-60)
      else if Num.lt false x (.fin false 1 (-60)) then .fin neg m e
      else
        let q := fixExpNeg (-(2 * toFix x))
        let t := fixDiv (fixOne - q) (fixOne + q)
        if neg then (ofFix t 0).neg else ofFix t 0

/-- Logistic function 1 / (1 + e^−x) of a fixed-point argument, as a value with its leading bits kept for arguments far
below 0. -/
def sigmoidFix (x : Int) : Num :=
  if 0 ≤ x then ofFix (fixDiv fixOne (fixOne + fixExpNeg (-x))) 0
  else if x < -(400 * fixOne) then .fin false 1 (-500)
  else (fixExp x).mul (ofFix (fixDiv fixOne (fixOne + fixExpNeg x)) 0)

/-- Logistic function (R145). -/
def sigmoidNum : Num → Num
  | .nan => .nan
  | .inf neg => if neg then .fin false 0 0 else .fin false 1 0
  | .fin neg m e =>
    if Num.lt false (.fin false 1 10) (.fin false m e) then (if neg then .fin false 1 (-600) else .fin false (2 ^ 60 - 1) (-60))
    else sigmoidFix (toFix (.fin neg m e))

/-- GELU of R130: 0.5 x (1 + tanh u) = x × sigmoid(2u), u = 0.7978845608 (x + 0.044715 x³). -/
def geluNum : Num → Num
  | .nan => .nan
  | .inf neg => if neg then .fin true 0 0 else .inf false
  | .fin neg m e =>
    if m = 0 then .fin neg 0 0
    else if Num.lt false (.fin false 32 0) (.fin false m e) then
      (if neg then .fin true 1 (-500) else .fin neg m e)
    else
      let x := toFix (.fin neg m e)
      let x3 := fixMul x (fixMul x x)
      let u := Int.fdiv (7978845608 * (x + Int.fdiv (44715 * x3) 1000000)) 10000000000
      (Num.fin neg m e).mul (sigmoidFix (2 * u))

/-- SiLU of R130. -/
def siluNum : Num → Num
  | .nan => .nan
  | .inf neg => if neg then .fin true 0 0 else .inf false
  | .fin neg m e =>
    if m = 0 then .fin neg 0 0
    else if Num.lt false (.fin false 512 0) (.fin false m e) then
      (if neg then .fin true 1 (-500) else .fin neg m e)
    else (Num.fin neg m e).mul (sigmoidFix (toFix (.fin neg m e)))

/-- Moves an FP32 code by a free error of at most `bound` units in the last place (log 17). A result that is a zero, an infinity
or NaN stays; the result keeps its sign and stays finite. -/
def withUlp (fn bound : Nat) (arg w : W32) : W32 :=
  let mag : Nat := w.toNat % 2 ^ 31
  if mag = 0 ∨ mag ≥ 0x7F800000 then w
  else
    let err := Config.ulpError fn arg.toNat
    let e : Int := if err > bound then bound else if err < -(bound : Int) then -(bound : Int) else err
    let m : Int := (mag : Int) + e
    let m2 : Int := if m < 1 then 1 else if m > 0x7F7FFFFF then 0x7F7FFFFF else m
    BitVec.ofNat 32 (withSign .fp32 (decide (w.toNat ≥ 2 ^ 31)) m2.toNat)

/-- FP32 functions with a stated accuracy (R130, R144): name, bound in ulp, exact value. At ±∞ the value is the one that the
tables of R130 and R145 give. -/
def approx32 (fn bound : Nat) (f : Num → Num) (w : W32) : W32 :=
  let r := toF32 (f (ofF32 w))
  match ofF32 w with
  | .inf _ => r
  | _ => withUlp fn bound w r

/-- ReLU of R130. -/
def reluNum (x : Num) : Num :=
  match x with
  | .nan => .nan
  | .inf neg => if neg then .fin false 0 0 else .inf false
  | .fin neg m e => if neg then .fin false 0 0 else .fin false m e

/-- Activations of an epilogue, by ACT (R127, R130). -/
def activation (act : Nat) (w : W32) : W32 :=
  if act = 1 then toF32 (reluNum (ofF32 w))
  else if act = 2 then approx32 0x13 2 geluNum w
  else if act = 3 then approx32 0x14 2 siluNum w
  else toF32 (ofF32 w)

end Sys2Proof.Machine
end

