-- ==== Sys2Proof/Machine/Matrix.lean ====
section
/-!
DEFINITION. The matrix slots (R77 to R81, R110 to R136): weight loads, the accumulating ops, INIT and DRAIN.
-/
namespace Sys2Proof.Machine

/-! ### Weight tiles (R80, R111) -/

/-- Loads the part of this repeat into the standby tile. -/
def loadPart (s : State) (c a w : Nat) (b : Bun) : State :=
  if bit w 31 = false then s
  else
    let part := bits w 44 41 + b.rep
    if part ≥ partCount (bits w 24 22) then s
    else
      let v := (bits w 40 32 + b.rep) % 512
      let s := spoil s c (hazV (s.core c) (512 * v) 512)
      let x := s.core c
      let bytes := if x.spoiled then freeBytes s.fresh 512 else vreg x c v
      (s.setCore c (x.modArray a fun r =>
        { r with standby := { r.standby with parts := tput r.standby.parts part bytes, lost := r.standby.lost.filter fun l => l.1 != part, ready := x.cyc + 2, src := x.issued } })).ticket

/-- A byte of the active tile; a part never loaded holds its value at reset or a free one. -/
def tileByte (x : Core) (c a : Nat) (t : Tile) (part k : Nat) : Byte :=
  match tfind t.parts part with
  | some bs => bs.getD k 0
  | none => if x.rf.gen = 0 then 0 else Config.unspecV x.rf.gen c (0x40000 + ((2 * a + t.idx) * 16 + part) * 512 + k)

/-- Code of element (i, j) of the active tile. -/
def weightCode (x : Core) (c a fmt i j : Nat) : Nat :=
  let t := (x.array a).active
  let p := i / partRows fmt
  let r := i % partRows fmt
  match t.lost.find? fun l => l.1 == p && l.2.1 == j with
  | some l => freeNat l.2.2 (4 * r + 4) >>> (32 * r) % 2 ^ (4 * halves fmt)
  | none =>
  if fmt = 4 then
    let v := (tileByte x c a t p (r * 16 + j / 2)).toNat
    if j % 2 = 0 then v % 16 else v / 16
  else
    let w := halves fmt / 2
    leNat ((List.range w).map fun k => tileByte x c a t p (r * 32 * w + j * w + k))

/-! ### Activations (R110, R116, R121) -/

/-- Bytes of a feed slice in a format (R85). DESIGN CHOICE (log 75): FEED and FEEDV accept FMT 6, INT32 of R76, for which spec/ lists
no slice; it takes 256 bytes here, as FP32 does. -/
def sliceBytes (fmt : Nat) : Nat := if fmt = 0 ∨ fmt = 6 then 256 else if fmt = 1 then 128 else 64

/-- Element i of the feed register in a format; in FP4 both tokens, the second in bits [7:4]. Bytes that the last feed
did not write are free (R85). -/
def feedElem (x : Core) (ticket fmt i : Nat) : Nat :=
  let byte (k : Nat) : Nat := if k < x.feedLen then (x.feed.getD k 0).toNat else (Config.freeByte ticket k).toNat
  if fmt = 4 then
    let nib (k : Nat) : Nat := if i % 2 = 0 then byte k % 16 else byte k / 16
    nib (i / 2) + 16 * nib (32 + i / 2)
  else
    let w := halves fmt / 2
    leNat ((List.range w).map fun k => BitVec.ofNat 8 (byte (i * w + k)))

/-- Operands of the 64 rows after the row-hold update. DESIGN CHOICE (log 75): spec/ does not say what h[i] is to an op of another
format than the one that loaded it; here its low bits are read, and an FP4 op holds the codes of both tokens. -/
def rowOperands (x : Core) (c a ticket fmt shift : Nat) : List Nat :=
  let sh := if fmt = 4 then 0 else 4 * shift
  (List.range 64).map fun i =>
    if sh = 0 then feedElem x ticket fmt i
    else if i < 64 - sh then
      ((tfind (x.array a).hold (i + sh)).getD ((unspecOf x c 3 (64 * a + i + sh)).setWidth 32)).toNat % 2 ^ (4 * halves fmt)
    else feedElem x ticket fmt (i - (64 - sh))

/-! ### Cell operations (R46, R112 to R114) -/

/-- Rounds to the tree format of R113: 48 significant bits, the leading one included (log 19). -/
def treeRound : Num → Num
  | .fin neg m e =>
    let l := Nat.log2 m
    if l ≤ 47 then .fin neg m e else .fin neg (rne m (47 - (l : Int))) (e + l - 47)
  | x => x

/-- Value of an array operand; subnormals of the floating formats from FP32 to E5M2 are flushed (R46). -/
def operandOf (fmt code : Nat) : Num :=
  match NumFmt.ofCode fmt with
  | none => .nan
  | some f =>
    match decodeNum f code with
    | .fin neg m e => if (f ≠ .fp4 ∧ f.isInt = false) ∧ m < 2 ^ f.mbits then .fin neg 0 e else .fin neg m e
    | x => x

/-- Class of an accumulating op or of INIT: 0 sum, 1 min, 2 max. -/
def classOf (op xop : Nat) : Nat := if op = 0x13 then 1 else if op = 0x14 then 2 else if op = 0x21 then xop else 0

/-- Identity of a class. -/
def identity (cls : Nat) : W32 := if cls = 1 then 0x7F800000 else if cls = 2 then 0xFF800000 else 0

/-- Comparison of CMPC: < ≤ = ≠ ≥ >; with NaN it is false. -/
def compares (xop : Nat) (a b : Num) : Bool :=
  let lt := Num.lt false a b
  let gt := Num.lt false b a
  let ok := !a.isNan && !b.isNan
  ok && (if xop = 0 then lt else if xop = 1 then !gt else if xop = 2 then !lt && !gt else if xop = 3 then lt || gt
    else if xop = 4 then !lt else gt)

/-- Number of 1 bits in a number below 2^n. -/
def popCount : Nat → Nat → Nat
  | 0, _ => 0
  | n + 1, v => v % 2 + popCount n (v / 2)

/-- Term of a cell (R112). -/
def cellTerm (op xop fa fw a w : Nat) : Num :=
  let x := operandOf fa a
  let y := operandOf fw w
  if op = 0x10 then x.mul y
  else if op = 0x11 then (x.add y.neg).abs
  else if op = 0x12 then (x.add y.neg).mul (x.add y.neg)
  else if op = 0x13 ∨ op = 0x14 then x.add y
  else if op = 0x15 then .fin false (popCount 8 (a ^^^ w)) 0
  else .fin false (if compares xop x y then 1 else 0) 0

/-- Joins adjacent values. -/
def joinPairs {α : Type} (f : α → α → α) : List α → List α
  | a :: b :: r => f a b :: joinPairs f r
  | l => l

/-- The pairwise tree, n levels (R113, R152). -/
def tree {α : Type} (f : α → α → α) : Nat → List α → List α
  | 0, l => l
  | n + 1, l => tree f n (joinPairs f l)

/-- Column result of 64 terms, in FP32. -/
def columnResult (cls : Nat) (terms : List Num) : W32 :=
  let f : Num → Num → Num := if cls = 1 then Num.min2 else if cls = 2 then Num.max2 else fun a b => treeRound (a.add b)
  toF32 ((tree f 6 (terms.map treeRound)).headD .nan)

/-- Combination of an FP32 value into another by class; `u` is the draw of the sum class (R114, R124). -/
def combine (cls : Nat) (acc v : W32) (u : Nat) : W32 :=
  if cls = 1 then toF32 (Num.min2 (ofF32 acc) (ofF32 v))
  else if cls = 2 then toF32 (Num.max2 (ofF32 acc) (ofF32 v))
  else roundStochastic ((ofF32 acc).add (ofF32 v)) u

/-- Draw of R55 for the accumulator file. -/
def accDraw (s : State) (c a e j : Nat) : Nat :=
  let x := s.core c
  drawBits s.glb.rseed c x.tile s.run.step (((x.kq * 64 + e) * 4 + a) * 32 + j)

/-- Draw of R56 for a chain hop at position h. -/
def hopDraw (s : State) (c e h j : Nat) : Nat :=
  drawBits s.glb.rseed c ((s.core c).tile + 2 ^ 31) s.run.step (j + 32 * (e + 64 * h))

/-- New values of entry (a, e): the chain record first, then the column results (R117). -/
def entryValues (s : State) (c a e op xop : Nat) (chain first : Bool) (cols : List W32) : List W32 :=
  let x := s.core c
  let cls := classOf op xop
  let prior := if first then List.replicate 32 (identity cls) else (entryOf x c a e).vals
  let rec0 := (tfind x.chain (64 * a + e)).getD (1, (List.range 136).map fun k => (unspecOf x c 5 ((64 * a + e) * 136 + k)).setWidth 8)
  let bytes := rec0.2
  let hop := (bytes.getD 2 0).toNat
  (List.range 32).map fun j =>
    let p := prior.getD j 0
    let p :=
      if chain then
        let v : W32 := BitVec.ofNat 32 (leNat ((bytes.drop (8 + 4 * j)).take 4))
        if first then toF32 (ofF32 v) else combine cls p v (hopDraw s c e hop j)
      else p
    combine cls p (cols.getD j 0) (accDraw s c a e j)

/-- Combines column results into an entry. In a bundle that has broken a timing rule the values are free, and the class, EMPTY and the
chain record are as ever (R103, R115, R125). -/
def accumulate (s : State) (c a e op xop : Nat) (chain first : Bool) (cols : List W32) : State :=
  let x := s.core c
  let slot := 64 * a + e
  let twice := chain && (match tfind x.chain slot with | some r => r.1 == 2 | none => false)
  let v : AccEntry := { vals := entryValues s c a e op xop chain first cols, cls := classOf op xop, empty := false,
                        ready := x.cyc + 80, src := x.issued }
  let x := putEntry x a e v
  let x := if chain then { x with chain := match tfind x.chain slot with | some r => tput x.chain slot (1, r.2) | none => x.chain } else x
  let s := s.setCore c x
  if twice || x.spoiled then spoilEntry s c (a, e) else s

/-- MAC, L1, SQD, MINPLUS, MAXPLUS, HAM and CMPC in one repeat (R79, R110 to R117, R121 to R124). -/
def accumulateStep (op c a : Nat) (s : State) (w : Nat) (b : Bun) : State :=
  let s := loadPart s c a w b
  let fa := bits w 21 19
  let fw := bits w 24 22
  let n := sliceCycles op fa
  if b.rep % n ≠ 0 then s
  else
    let x := s.core c
    let r := x.array a
    let early := (if x.cyc < r.nextOp ∧ r.opSrc ≠ x.issued then [r.opSrc] else []) ++ (if x.cyc < r.active.ready then [r.active.src] else [])
    let s := spoil s c early
    let x := s.core c
    let e := (bits w 17 12 + (if bit w 18 then b.rep / n else 0)) % 64
    let rows := rowOperands x c a s.fresh fa (bits w 28 25)
    let xop := bits w 80 78
    let tok (t : Nat) : List W32 :=
      (List.range 32).map fun j =>
        columnResult (classOf op xop)
          ((List.range 64).map fun i =>
            let act := rows.getD i 0
            cellTerm op xop fa fw (if fa = 4 then (if t = 0 then act % 16 else act / 16) else act) (weightCode x c a fw i j))
    let hold : Tab W32 := (List.range 64).map fun i => (i, BitVec.ofNat 32 (rows.getD i 0))
    let s := (s.setCore c (x.modArray a fun r =>
      { r with hold := hold, nextOp := x.cyc + n, opSrc := x.issued })).ticket
    let s' := accumulate s c a e op xop (bit w 77) (bit w 81) (tok 0)
    if fa = 4 then accumulate s' c a ((e + 32) % 64) op xop (bit w 77) (bit w 81) (tok 1) else s'

/-- INIT in one repeat (R115). -/
def initStep (c a : Nat) (s : State) (w : Nat) (b : Bun) : State :=
  let s := loadPart s c a w b
  let x := s.core c
  let e := (bits w 17 12 + (if bit w 18 then b.rep else 0)) % 64
  let cls := bits w 80 78
  let old := entryOf x c a e
  let ready := Nat.max old.ready (x.cyc + 4)
  let s := s.setCore c (putEntry x a e { vals := List.replicate 32 (identity cls), cls := cls, empty := true, ready := ready, src := x.issued })
  if x.spoiled then spoilEntry s c (a, e) else s

/-! ### DRAIN (R81, R127 to R132) -/

/-- Element k of the streamed operand row of repeat r, in FP32. -/
def operandRow (s : State) (x : Core) (c set r k : Nat) : W32 :=
  let fmt := bits (epiCtl x set) 14 12
  let w := halves fmt / 2
  let addr := 64 * bits (epiOpnd x set) 14 0 + r * 64 * bits (epiQs x set) 23 9 + k * w
  match NumFmt.ofCode fmt with
  | some f => widen f (leNat (cacheBytes s c addr w))
  | none => 0x7FC00000

/-- The epilogue of one value: the value before the quantisation scale, and the output (R129). -/
def epilogue (s : State) (x : Core) (c set : Nat) (acc : W32) (e a j r : Nat) : W32 × Nat × Status :=
  let ctl := epiCtl x set
  let col := 32 * a + j
  let v := acc
  let v := if bit ctl 6 then mul32 v (vword x c (bits (epiVreg x set) 8 0) e) else v
  let v := if bit ctl 7 then mul32 v (vword x c (bits (epiVreg x set) 17 9) col) else v
  let v :=
    if bit ctl 0 = false then
      let v := if bit ctl 8 then add32 v (vword x c (bits (epiVreg x set) 26 18) col) else v
      activation (bits ctl 5 4) v
    else if bits ctl 11 10 = 1 then add32 v (operandRow s x c set r col)
    else if bits ctl 11 10 = 2 then mul32 v (operandRow s x c set r col)
    else v
  let out := if bit ctl 9 then mul32 v (vword x c (bits (epiQs x set) 8 0) e) else v
  let res := match NumFmt.ofCode (bits ctl 3 1) with
    | some f => epilogueConvert f (bit ctl 0) out
    | none => (0, .none)
  (v, res)

/-- What an epilogue set reads: V registers, and the operand row (R127, R143). -/
def epilogueHazards (x : Core) (set r : Nat) : List Nat :=
  let ctl := epiCtl x set
  (if bit ctl 6 then hazV x (512 * bits (epiVreg x set) 8 0) 512 else []) ++
  (if bit ctl 7 then hazV x (512 * bits (epiVreg x set) 17 9) 512 else []) ++
  (if bit ctl 8 && !bit ctl 0 then hazV x (512 * bits (epiVreg x set) 26 18) 512 else []) ++
  (if bit ctl 9 then hazV x (512 * bits (epiQs x set) 8 0) 512 else []) ++
  (if bit ctl 0 && bits ctl 11 10 != 0 then
    hazCache x (64 * bits (epiOpnd x set) 14 0 + r * 64 * bits (epiQs x set) 23 9) (64 * halves (bits ctl 14 12)) else [])

/-- Packs codes of a format into bytes. -/
def packCodes (fmt : Nat) : List Nat → List Byte
  | [] => []
  | [a] => if fmt = 4 then [BitVec.ofNat 8 (a % 16)] else leBytes (halves fmt / 2) a
  | a :: b :: r =>
    if fmt = 4 then BitVec.ofNat 8 (a % 16 + 16 * (b % 16)) :: packCodes fmt r
    else leBytes (halves fmt / 2) a ++ packCodes fmt (b :: r)

/-- Puts a result of array a beside those that other arrays of the same bundle have put at the same address: status bytes are
ORed, absolute maxima combined by the maximum of R69 (R81). -/
def launchMerged (s : State) (c a addr : Nat) (bytes : List Byte) (merge : List Byte → List Byte → List Byte) : State :=
  match (s.core c).bun with
  | none => s
  | some b =>
    let others := b.drained.filter fun d => d.1 != a && d.2.1 == addr
    let all := others.foldl (fun v d => merge d.2.2 v) bytes
    let s := s.modCore c fun x =>
      { x with bun := some { b with drained := (a, addr, bytes) :: b.drained.filter fun d => !(d.1 == a && d.2.1 == addr) } }
    launch s c 24 0 (.vreg addr (all.map fun v => (v, 0xFF)))

/-- Row-status bytes and FP32 maxima of two arrays. -/
def mergeStatus (u v : List Byte) : List Byte := [u.getD 0 0 ||| v.getD 0 0]
def mergeAmax (u v : List Byte) : List Byte :=
  leBytes 4 (toF32 (Num.max2 (ofF32 (BitVec.ofNat 32 (leNat u))) (ofF32 (BitVec.ofNat 32 (leNat v))))).toNat

/-- DRAIN in one repeat. DESIGN CHOICE (log 75): R67 does not say whether NAN covers a DRAIN's second result; a NaN row converted to
FP4 or INT8 puts the canonical NaN into VAMAX and leaves NAN at 0 here, while QCVT's status counts its maximum (R139). -/
def drainStep (c a : Nat) (s : State) (w : Nat) (b : Bun) : State :=
  let s := loadPart s c a w b
  let x := s.core c
  let e := (bits w 17 12 + (if bit w 18 then b.rep else 0)) % 64
  let ent := entryOf x c a e
  let set := bits w 76 74
  let early := (if x.cyc < ent.ready then [ent.src] else []) ++ (if bit w 77 then [] else epilogueHazards x set b.rep)
  let s := spoil s c early
  let x := s.core c
  let ent := entryOf x c a e
  if bit w 77 then chainSend s c a e ent.cls ent.vals
  else
    let rows := (List.range 32).map fun j => epilogue s x c set (ent.vals.getD j 0) e a j b.rep
    let fmt := bits (epiCtl x set) 3 1
    let st := statusOf (rows.map (·.2))
    let st : Status := { st with empty := ent.empty }
    let amax := rows.foldl (fun m r => Num.max2 m (ofF32 r.1).abs) (.fin false 0 0)
    let amax4 := leBytes 4 (toF32 amax).toNat
    let s := raiseOvf s st.ovf
    let addr := 512 * bits w 53 45 + b.rep * 64 * halves fmt + a * 16 * halves fmt
    let s := launch s c 24 1 (.vreg addr ((packCodes fmt (rows.map (·.2.1))).map fun v => (v, 0xFF)))
    let s := if bit w 54 then
        launchMerged s c a (512 * bits w 63 55 + e) [st.byte] mergeStatus
      else s
    if bit w 64 then
      launchMerged s c a (512 * bits w 73 65 + 4 * e) amax4 mergeAmax
    else s

/-! ### The rows -/

/-- WLOAD (R78, R80). -/
def execMWload (c a : Nat) (s : State) : Out :=
  guarded (.mWload c a) s (slotOp c a 0x01 false fun s w b => loadPart s c a w b)
/-- MAC (R78, R112). -/
def execMMac (c a : Nat) (s : State) : Out := guarded (.mMac c a) s (slotOp c a 0x10 false (accumulateStep 0x10 c a))
/-- L1 (R78, R112). -/
def execML1 (c a : Nat) (s : State) : Out := guarded (.mL1 c a) s (slotOp c a 0x11 false (accumulateStep 0x11 c a))
/-- SQD (R78, R112). -/
def execMSqd (c a : Nat) (s : State) : Out := guarded (.mSqd c a) s (slotOp c a 0x12 false (accumulateStep 0x12 c a))
/-- MINPLUS (R78, R112). -/
def execMMinplus (c a : Nat) (s : State) : Out :=
  guarded (.mMinplus c a) s (slotOp c a 0x13 false (accumulateStep 0x13 c a))
/-- MAXPLUS (R78, R112). -/
def execMMaxplus (c a : Nat) (s : State) : Out :=
  guarded (.mMaxplus c a) s (slotOp c a 0x14 false (accumulateStep 0x14 c a))
/-- HAM (R78, R112). -/
def execMHam (c a : Nat) (s : State) : Out := guarded (.mHam c a) s (slotOp c a 0x15 false (accumulateStep 0x15 c a))
/-- CMPC (R78, R112). -/
def execMCmpc (c a : Nat) (s : State) : Out := guarded (.mCmpc c a) s (slotOp c a 0x16 false (accumulateStep 0x16 c a))
/-- DRAIN (R81, R123, R129). -/
def execMDrain (c a : Nat) (s : State) : Out := guarded (.mDrain c a) s (slotOp c a 0x20 false (drainStep c a))
/-- INIT (R115). -/
def execMInit (c a : Nat) (s : State) : Out := guarded (.mInit c a) s (slotOp c a 0x21 false (initStep c a))

end Sys2Proof.Machine
end

