-- ==== Sys2Proof/Machine/LoadCtl.lean ====
section
/-!
DEFINITION. The load slot and the control slot (R84 to R91), the wait of a bundle (R92), NOP, token arrivals and the wait
limit (R94, R97).
-/
namespace Sys2Proof.Machine

/-! ### Load slot -/

/-- Effective address before rounding (R85). -/
def loadAddr (x : Core) (c w : Nat) : Nat :=
  (((readX x c (bits w 16 12)).toNat : Int) + 8 * sext 16 (bits w 41 26)).emod 0x200000 |>.toNat

/-- The form of a load op: what it reads too soon, and its result. -/
def loadOp (c op : Nat) (hz : Core → Nat → Nat → Bun → List Nat) (f : State → Core → Nat → Nat → Bun → Nat × Nat × Payload)
    (s : State) : State :=
  slotOp c 6 op false (fun s w b =>
    let x := s.core c
    let a := loadAddr x c w
    let s := spoil s c (hazX x (bits w 16 12) ++ hz x a w b)
    let x := s.core c
    let (lat, weight, p) := f s x a w b
    launch s c lat weight p) s

/-- V or P register of this repeat (R84). DESIGN CHOICE (log 79): a P number past 15 wraps to P0, as R81 says of V registers. -/
def loadReg (w : Nat) (b : Bun) (n : Nat) : Nat := (bits w 25 17 + (if bit w 67 then b.rep else 0)) % n

/-- Bytes written whole. -/
def whole (bs : List Byte) : List (Byte × Byte) := bs.map fun v => (v, 0xFF)

/-- LDV (R85). -/
def execLdLdv (c : Nat) (s : State) : Out :=
  guarded (.ldLdv c) s (loadOp c 1 (fun x a _ _ => hazCache x (a / 64 * 64) 512)
    fun s _ a w b => (6, 1, .vreg (512 * loadReg w b 512) (whole (cacheBytes s c (a / 64 * 64) 512))))
/-- STV (R85). -/
def execLdStv (c : Nat) (s : State) : Out :=
  guarded (.ldStv c) s (loadOp c 2 (fun x _ w b => hazV x (512 * loadReg w b 512) 512)
    fun _ x a w b => (2, 0, .cache (a / 64 * 64) (vreg x c (loadReg w b 512))))
/-- LDS (R85). -/
def execLdLds (c : Nat) (s : State) : Out :=
  guarded (.ldLds c) s (loadOp c 3 (fun x a _ _ => hazCache x (a / 8 * 8) 8)
    fun s _ a w _ => (6, 1, .sreg (bits w 63 58) (BitVec.ofNat 64 (leNat (cacheBytes s c (a / 8 * 8) 8))) (BitVec.allOnes 64)))
/-- STS (R85). -/
def execLdSts (c : Nat) (s : State) : Out :=
  guarded (.ldSts c) s (loadOp c 4 (fun x _ w _ => hazS x (bits w 63 58))
    fun _ x a w _ => (2, 0, .cache (a / 8 * 8) (leBytes 8 (readS x c (bits w 63 58)).toNat)))
/-- LDP (R85). -/
def execLdLdp (c : Nat) (s : State) : Out :=
  guarded (.ldLdp c) s (loadOp c 5 (fun x a _ _ => hazCache x (a / 64 * 64) 64)
    fun s _ a w b => (6, 1, .preg (loadReg w b 16) (BitVec.ofNat 512 (leNat (cacheBytes s c (a / 64 * 64) 64))) (BitVec.allOnes 512)))
/-- STP (R85). -/
def execLdStp (c : Nat) (s : State) : Out :=
  guarded (.ldStp c) s (loadOp c 6 (fun x _ w b => hazP x (loadReg w b 16))
    fun _ x a w b => (2, 0, .cache (a / 64 * 64) (leBytes 64 (readP x c (loadReg w b 16)).toNat)))
/-- FEED (R85). -/
def execLdFeed (c : Nat) (s : State) : Out :=
  guarded (.ldFeed c) s (loadOp c 7 (fun x a w _ => hazCache x (a / 64 * 64) (sliceBytes (bits w 66 64)))
    fun s _ a w _ => (6, 0, .feed (cacheBytes s c (a / 64 * 64) (sliceBytes (bits w 66 64)))))

/-- The slice of FEEDV; spec/ states no bytes past the end of the register, and they are free (log 20). -/
def feedvBytes (x : Core) (c ticket w : Nat) (b : Bun) : List Byte :=
  let o := 8 * bits w 41 26 % 512
  let r := loadReg w b 512
  (List.range (sliceBytes (bits w 66 64))).map fun i =>
    if o + i < 512 then readV x c (512 * r + o + i) else Config.freeByte ticket i
/-- FEEDV (R85). -/
def execLdFeedv (c : Nat) (s : State) : Out :=
  guarded (.ldFeedv c) s fun s =>
    State.ticket (loadOp c 8 (fun x _ w b => hazV x (512 * loadReg w b 512) 512)
      (fun s x _ w b => (6, 0, .feed (feedvBytes x c s.fresh w b))) s)

/-! ### Control slot -/

def ctlSd (w : Nat) : Nat := bits w 17 12
def ctlSa (w : Nat) : Nat := bits w 23 18
def ctlSb (w : Nat) : Nat := bits w 29 24
def ctlImm (w : Nat) : Nat := bits w 61 30
def ctlXd (w : Nat) : Nat := bits w 66 62

/-- A control op with an effect of its own on the bundle or the device. -/
def controlOp (c op : Nat) (reads : Nat → List Nat) (f : State → Core → Nat → Bun → State) (s : State) : State :=
  slotOp c 7 op false (fun s w b =>
    let x := s.core c
    let s := spoil s c ((reads w).flatMap fun n => hazS x n)
    f s (s.core c) w b) s

/-- A control op with a result in S(SD). -/
def scalarOp (c op lat : Nat) (reads : Nat → List Nat) (f : State → Core → Nat → W64) (s : State) : State :=
  controlOp c op reads (fun s x w _ => launch s c lat 1 (.sreg (ctlSd w) (f s x w) (BitVec.allOnes 64))) s

/-- A scalar op on S(SA) and S(SB). -/
def binaryOp (c op lat : Nat) (f : W64 → W64 → W64) (s : State) : State :=
  scalarOp c op lat (fun w => [ctlSa w, ctlSb w]) (fun _ x w => f (readS x c (ctlSa w)) (readS x c (ctlSb w))) s

/-- A comparison of S(SA) and S(SB) into P(PD). -/
def compareOp (c op : Nat) (f : W64 → W64 → Bool) (s : State) : State :=
  controlOp c op (fun w => [ctlSa w, ctlSb w]) (fun s x w _ =>
    let v : BitVec 512 := if f (readS x c (ctlSa w)) (readS x c (ctlSb w)) then BitVec.allOnes 512 else 0
    launch s c 1 1 (.preg (bits w 70 67) v (BitVec.allOnes 512))) s

/-- Sign extension of IMM to 64 bits. -/
def imm64 (w : Nat) : W64 := (BitVec.ofNat 32 (ctlImm w)).signExtend 64

/-- Changes the bundle in progress. -/
def modBun (s : State) (c : Nat) (f : Bun → Bun) : State := s.modCore c fun x => { x with bun := x.bun.map f }

/-- END (R87). -/
def execCtlEnd (c : Nat) (s : State) : Out :=
  guarded (.ctlEnd c) s (controlOp c 0x01 (fun _ => []) fun s _ _ _ => modBun s c fun b => { b with final := true })
/-- LOOP (R90). -/
def execCtlLoop (c : Nat) (s : State) : Out :=
  guarded (.ctlLoop c) s (controlOp c 0x02 (fun w => [ctlSa w]) fun s x w _ =>
    modBun s c fun b => { b with loop := some (ctlImm w % 65536, (readS x c (ctlSa w)).toNat % 2 ^ 32) })
/-- BR (R90). -/
def execCtlBr (c : Nat) (s : State) : Out :=
  guarded (.ctlBr c) s (controlOp c 0x03 (fun _ => []) fun s x w _ =>
    modBun s c fun b => { b with branch := some ((((x.pc : Int) + sext 32 (ctlImm w)).emod 16384).toNat) })
/-- SLI (R87). -/
def execCtlSli (c : Nat) (s : State) : Out := guarded (.ctlSli c) s (scalarOp c 0x08 1 (fun _ => []) fun _ _ w => imm64 w)
/-- SLIH (R87). -/
def execCtlSlih (c : Nat) (s : State) : Out :=
  guarded (.ctlSlih c) s (controlOp c 0x09 (fun _ => []) fun s _ w _ =>
    launch s c 1 1 (.sreg (ctlSd w) (BitVec.ofNat 64 (ctlImm w * 2 ^ 32)) 0xFFFFFFFF00000000))
/-- SADD (R87). -/
def execCtlSadd (c : Nat) (s : State) : Out := guarded (.ctlSadd c) s (binaryOp c 0x0A 1 fun a b => a + b)
/-- SSUB (R87). -/
def execCtlSsub (c : Nat) (s : State) : Out := guarded (.ctlSsub c) s (binaryOp c 0x0B 1 fun a b => a - b)
/-- SAND (R87). -/
def execCtlSand (c : Nat) (s : State) : Out := guarded (.ctlSand c) s (binaryOp c 0x0C 1 fun a b => a &&& b)
/-- SOR (R87). -/
def execCtlSor (c : Nat) (s : State) : Out := guarded (.ctlSor c) s (binaryOp c 0x0D 1 fun a b => a ||| b)
/-- SXOR (R87). -/
def execCtlSxor (c : Nat) (s : State) : Out := guarded (.ctlSxor c) s (binaryOp c 0x0E 1 fun a b => a ^^^ b)
/-- SSHL (R87): shifts use S(SB)[5:0]. -/
def execCtlSshl (c : Nat) (s : State) : Out :=
  guarded (.ctlSshl c) s (binaryOp c 0x0F 1 fun a b => a <<< (b.toNat % 64))
/-- SSHR (R87). -/
def execCtlSshr (c : Nat) (s : State) : Out :=
  guarded (.ctlSshr c) s (binaryOp c 0x10 1 fun a b => a >>> (b.toNat % 64))
/-- SSRA (R87). -/
def execCtlSsra (c : Nat) (s : State) : Out :=
  guarded (.ctlSsra c) s (binaryOp c 0x11 1 fun a b => a.sshiftRight (b.toNat % 64))
/-- SMUL (R87). -/
def execCtlSmul (c : Nat) (s : State) : Out := guarded (.ctlSmul c) s (binaryOp c 0x12 4 fun a b => a * b)
/-- SADDI (R87). -/
def execCtlSaddi (c : Nat) (s : State) : Out :=
  guarded (.ctlSaddi c) s (scalarOp c 0x13 1 (fun w => [ctlSa w]) fun _ x w => readS x c (ctlSa w) + imm64 w)
/-- CMPEQ of the control slot (R87). -/
def execCtlCmpeq (c : Nat) (s : State) : Out := guarded (.ctlCmpeq c) s (compareOp c 0x18 fun a b => a == b)
/-- CMPLT of the control slot (R87). -/
def execCtlCmplt (c : Nat) (s : State) : Out := guarded (.ctlCmplt c) s (compareOp c 0x19 fun a b => a.slt b)
/-- CMPLTU of the control slot (R87). -/
def execCtlCmpltu (c : Nat) (s : State) : Out := guarded (.ctlCmpltu c) s (compareOp c 0x1A fun a b => a.ult b)
/-- XSET (R87). -/
def execCtlXset (c : Nat) (s : State) : Out :=
  guarded (.ctlXset c) s (controlOp c 0x20 (fun w => [ctlSa w]) fun s x w _ =>
    launch s c 1 1 (.xreg (ctlXd w) ((readS x c (ctlSa w)).setWidth 32)))
/-- XADDI (R87). -/
def execCtlXaddi (c : Nat) (s : State) : Out :=
  guarded (.ctlXaddi c) s (controlOp c 0x21 (fun _ => []) fun s x w _ =>
    let s := spoil s c (hazX x (ctlXd w))
    launch s c 1 1 (.xreg (ctlXd w) (readX (s.core c) c (ctlXd w) + BitVec.ofNat 32 (ctlImm w))))
/-- XGET (R87). -/
def execCtlXget (c : Nat) (s : State) : Out :=
  guarded (.ctlXget c) s (controlOp c 0x22 (fun _ => []) fun s x w _ =>
    let s := spoil s c (hazX x (bits w 22 18))
    launch s c 1 1 (.sreg (ctlSd w) ((readX (s.core c) c (bits w 22 18)).setWidth 64) (BitVec.allOnes 64)))
/-- SETTILE (R87). -/
def execCtlSettile (c : Nat) (s : State) : Out :=
  guarded (.ctlSettile c) s (controlOp c 0x28 (fun w => [ctlSa w]) fun s x w _ =>
    launch s c 1 0 (.tile ((readS x c (ctlSa w)).toNat % 2 ^ 31)))
/-- SETKQ (R87). -/
def execCtlSetkq (c : Nat) (s : State) : Out :=
  guarded (.ctlSetkq c) s (controlOp c 0x29 (fun w => [ctlSa w]) fun s x w _ =>
    launch s c 1 0 (.kq ((readS x c (ctlSa w)).toNat % 2 ^ 19)))
/-- SIGNAL (R95). -/
def execCtlSignal (c : Nat) (s : State) : Out :=
  guarded (.ctlSignal c) s (controlOp c 0x30 (fun w => [ctlSa w]) fun s x w _ =>
    addToken s ((readS x c (ctlSa w)).toNat % 512) (ctlImm w % 64))
/-- Increments of counter `tok` that have come in the cycle of issue of the bundle in progress. -/
def arrivals (x : Core) (tok : Nat) : Nat := match x.bun with | some b => b.arrived.count tok | none => 0

/-- TOKRD (R96): the counter as it was before the increments of this cycle. -/
def execCtlTokrd (c : Nat) (s : State) : Out :=
  guarded (.ctlTokrd c) s (scalarOp c 0x31 1 (fun _ => []) fun _ x w => BitVec.ofNat 64 (readT x (ctlImm w % 64) - arrivals x (ctlImm w % 64)))
/-- Sets a token counter, then adds the increments of the same cycle (R96). In a bundle that has broken a timing rule the counter
holds a free value (R103). -/
def setToken (s : State) (c : Nat) (x : Core) (tok v : Nat) : State :=
  let v := (if x.spoiled then freeNat s.fresh 2 else v) + arrivals x tok
  let s := (s.setCore c (writeT x tok (Nat.min v 65535))).ticket
  if v > 65535 then corePlanFault s c 3 x.pc tok else s
/-- TOKSET (R96). -/
def execCtlTokset (c : Nat) (s : State) : Out :=
  guarded (.ctlTokset c) s (controlOp c 0x32 (fun w => [ctlSa w]) fun s x w _ =>
    setToken s c x (ctlImm w % 64) ((readS x c (ctlSa w)).toNat % 65536))
/-- KICK (R100, R166). -/
def execCtlKick (c : Nat) (s : State) : Out :=
  guarded (.ctlKick c) s (controlOp c 0x38 (fun w => [ctlSa w]) fun s x w _ =>
    postList s (c / 12) (ctlImm w % 16) (readS x c (ctlSa w)).toNat)
/-- FENCE (R87). -/
def execCtlFence (c : Nat) (s : State) : Out :=
  guarded (.ctlFence c) s (controlOp c 0x39 (fun _ => []) fun s _ _ _ => modBun s c fun b => { b with fence := true })
/-- TICK (R87). -/
def execCtlTick (c : Nat) (s : State) : Out :=
  guarded (.ctlTick c) s (scalarOp c 0x3A 1 (fun _ => []) fun s _ _ => BitVec.ofNat 64 s.now)

/-! ### Waits, NOP, tokens -/

/-- WAIT_TOKEN (R92). -/
def execWaitToken (c : Nat) (s : State) : Out := guarded (.waitToken c) s (waitStep c)
/-- NOP of a slot (R78, R85, R87, R91). -/
def execSlotNop (c slot : Nat) (s : State) : Out :=
  guarded (.slotNop c slot) s (nopStep c slot fun s w b =>
    if slot < 4 then loadPart s c slot w b else s)
/-- TOKEN_ARRIVAL (R94, R96). -/
def execTokenArrival (c tok : Nat) (s : State) : Out :=
  guarded (.tokenArrival c tok) s fun s => if s.inReset 1 then s else addToken s c tok
/-- WAIT_TIMEOUT (R97): the wait has lasted longer than the limit; a limit of 0 disables it. -/
def execWaitTimeout (c : Nat) (s : State) : Out :=
  guarded (.waitTimeout c) s fun s =>
    let x := s.core c
    match x.waiting with
    | some t =>
      if coreRuns s c = true ∧ s.glb.state = .running ∧ x.waitLimit ≠ 0 ∧ waitClock s - t > x.waitLimit then
        corePlanFault s c 4 x.pc (waitToken (fetch s c))
      else s
    | none => s
/-- CHAIN_RECORD (R124). -/
def execChainRecord (g : Nat) (record : List Byte) (s : State) : Out :=
  guarded (.chainRecord g record) s fun s => if s.inReset 1 then s else chainArrive s g record
/-- ENGINE_TOKEN_ARRIVAL (R168). -/
def execEngineTokenArrival (g eng tok : Nat) (s : State) : Out :=
  guarded (.engineTokenArrival g eng tok) s fun s =>
    if s.inReset 1 then s else runNops g nopFuel (addEToken s g eng tok)
/-- ENGINE_WAIT_TIMEOUT (R168): CORE_WAIT_LIMIT of the cluster's first core holds for its engines (log 21). -/
def execEngineWaitTimeout (g eng : Nat) (s : State) : Out :=
  guarded (.engineWaitTimeout g eng) s fun s =>
    let limit := (s.core (12 * g)).waitLimit
    match (s.engine g eng).waiting with
    | some t =>
      if engineRuns s g eng = true ∧ s.glb.state = .running ∧ limit ≠ 0 ∧ waitClock s - t > limit then
        enginePlanFault s g eng ((headDesc s g eng).getD 0) 6
      else s
    | none => s

end Sys2Proof.Machine
end

