-- ==== Sys2Proof/Machine/Deliver.lean ====
section
/-!
DEFINITION. Transfers between devices: routes (R264, R265, R299), delivery of a flit with its arrival token (R188, R189,
R201), and board-shared accesses (R309).
-/
namespace Sys2Proof.Machine

/-! ### Routes -/

/-- The entry of a route in the table of a phase. -/
def routeEntry (s : State) (phase route : Nat) : Option RouteEntry :=
  s.run.plan.bind fun p => (p.routes.getD phase [])[route]?

/-- Counts a flit discarded for its route by a port (R265). -/
def countRouteDrop (s : State) (port : Nat) : State :=
  s.modPort port fun x => { x with dropRoute := satInc 0xFFFF x.dropRoute }

/-! ### Delivery -/

/-- Another device or engine writes here: fast tiers, cluster memories and operand caches (R205). -/
def landsAt (pa : Nat) : Bool :=
  match placeOf pa with
  | .fast _ _ => true
  | .cluster _ _ => true
  | .cache _ _ => true
  | _ => false

/-- Writes the bytes of a transfer that may land, one by one. -/
def landEach (s : State) (pa : Nat) : List Byte → State
  | [] => s
  | b :: r => landEach (if landsAt pa then writeByte s pa b else s) (pa + 1) r

/-- Writes the bytes of a transfer, through the engine port where all of them land. -/
def landBytes (s : State) (pa : Nat) (bytes : List Byte) : State :=
  if landsAt pa && landsAt (pa + bytes.length - 1) then portWrite s pa bytes else landEach s pa bytes

/-- The cluster of an engine token (log 24). -/
def tokenClusterOf (rtok dst : Nat) : Nat :=
  match placeOf dst with
  | .cluster g _ => g
  | .cache c _ => c / 12
  | _ => Config.tokenCluster rtok dst % 40

/-- Raises an arrival token (R188). The core_id 0x1FF names the management mailbox (R425). -/
def raiseRtok (s : State) (rtok dst : Nat) : State :=
  if bit rtok 15 then addToken s (bits rtok 8 0) (bits rtok 14 9)
  else if bits rtok 3 0 ≤ 9 then
    let g := tokenClusterOf rtok dst
    runNops g nopFuel (addEToken s g (bits rtok 3 0) (bits rtok 6 4))
  else s

/-- Valid payload bytes of a flit. -/
def flitBytes (f : Flit) : List Byte := f.payload.take (4 * f.words.toNat)

/-- Delivers a flit: its words land, and with LAST the flag is ORed and the token raised (R189). A flit of a message lands in the
management mailbox: what the message does is the row that names it (R425). -/
def deliver (s : State) (f : Flit) : State :=
  if isMail f.rtok.toNat then s
  else
  let s := landBytes s f.dst.toNat (flitBytes f)
  if f.last then raiseRtok (raiseOvf s f.ovf) f.rtok.toNat f.dst.toNat else s

/-! ### Board-shared addressing -/

/-- Ports with USE 3 whose neighbour announced a board position. -/
def boardPortsTo (s : State) (q : Nat) : List Nat :=
  match s.run.plan with
  | none => []
  | some p =>
    (usedPorts s).filter fun n =>
      let x := s.port n
      (match p.wires[x.logical]? with | some w => w.use == 3 | none => false) &&
      (match x.nbr with | some i => i.bpos == q | none => false)

/-- Ports that carry an access to position q: its own, or those of position own XOR 1, which forwards. -/
def boardPorts (s : State) (q : Nat) : List Nat :=
  let l := boardPortsTo s q
  if l.isEmpty then boardPortsTo s (s.lnk.bpos ^^^ 1) else l

/-- The 4 KiB units of destination address that [a, a + n) spans: first address and length of each. -/
def boardUnits (a n : Nat) : List (Nat × Nat) :=
  (List.range ((a + n + 4095) / 4096 - a / 4096)).map fun k =>
    let lo := Nat.max a ((a / 4096 + k) * 4096)
    (lo, Nat.min (a + n) ((a / 4096 + k + 1) * 4096) - lo)

/-- A flit of a board access to position q. It names no arrival token: engine 15 is none (log 24). -/
def boardFlit (s : State) (typ q : Nat) : Flit := { blankFlit s typ with board := true, bpos := BitVec.ofNat 2 q, rtok := 15 }

/-- Writes bytes at another board position. -/
def boardWrite (s : State) (q pa : Nat) (bytes : List Byte) : State :=
  let ports := boardPorts s q
  if ports.isEmpty then s
  else
    let us := boardUnits pa bytes.length
    forEach (List.range us.length)
      (fun s k =>
        let u := us.getD k (0, 0)
        sendTransfer s (ports.getD (k % ports.length) 0) (boardFlit s 1 q) u.1 ((bytes.drop (u.1 - pa)).take u.2)) s

/-- Asks for bytes at another board position, to be returned to an address word. -/
def boardRead (s : State) (q pa n ret : Nat) : State :=
  let ports := boardPorts s q
  if ports.isEmpty then s
  else
    let us := boardUnits pa n
    forEach (List.range us.length)
      (fun s k =>
        let u := us.getD k (0, 0)
        let body := leBytes 8 u.1 ++ leBytes 4 u.2 ++ leBytes 8 (ret + (u.1 - pa))
        sendFlit s (ports.getD (k % ports.length) 0)
          { boardFlit s 4 q with words := 5, dst := BitVec.ofNat 56 u.1, payload := body ++ List.replicate 492 0 }) s

/-- What is left of a range when the bytes [lo, hi) have come. -/
def Owed.less (x : Owed) (lo hi : Nat) : List Owed :=
  [{ x with hi := Nat.min x.hi lo }, { x with lo := Nat.max x.lo hi }].filter fun y => decide (y.lo < y.hi)

/-- A range that the bytes [lo, hi) reach. -/
def Owed.meets (x : Owed) (lo hi : Nat) : Bool := decide (x.lo < hi ∧ lo < x.hi)

/-- The bytes of a reply are taken off the first range that they reach. -/
def takeOwed (lo hi : Nat) : List Owed → List Owed
  | [] => []
  | x :: r => if x.meets lo hi then x.less lo hi ++ r else x :: takeOwed lo hi r

/-- The engine that waits for a reply to [lo, hi), and the range that the reply reaches. -/
def owingEngine (s : State) (lo hi : Nat) : Option (Nat × Nat × Owed) :=
  (List.range 40).findSome? fun g => (s.cluster g).engines.findSome? fun e =>
    (e.2.owed.find? fun x => x.meets lo hi).map fun x => (g, e.1, x)

/-- Bytes of an operand arrive. -/
def Operand.fill (x : Operand) (lo : Nat) (bs : List Byte) : Operand :=
  { x with bytes := (List.range x.bytes.length).map fun i =>
      if lo ≤ x.ret + i ∧ x.ret + i < lo + bs.length then bs.getD (x.ret + i - lo) 0 else x.bytes.getD i 0 }

/-- A reply reaches its engine: bytes of the operand that it waits for, the last that it has asked for. -/
def takeReply (x : Engine) (lo : Nat) (keep : Bool) (bs : List Byte) : Engine :=
  { x with
    owed := takeOwed lo (lo + bs.length) x.owed
    operands := if keep then x.operands
      else match x.operands.getLast? with
        | some o => x.operands.dropLast ++ [o.fill lo bs]
        | none => [] }

/-- A DATA flit of board-shared addressing lands. A reply of R309 that an engine asked for as an operand goes to that engine
and writes no memory. -/
def deliverBoard (s : State) (f : Flit) : State :=
  let lo := f.dst.toNat
  let hi := lo + (flitBytes f).length
  match owingEngine s lo hi with
  | none => deliver s f
  | some (g, e, x) =>
    let s := s.modCluster g fun k =>
      { k with engines := tmod .reset k.engines e fun y => takeReply y lo x.keep (flitBytes f) }
    if x.keep then deliver s f else if f.last then raiseOvf s f.ovf else s

end Sys2Proof.Machine
end

