-- ==== Sys2Proof/Machine/EngineMem.lean ====
section
/-!
DEFINITION. Memory as the cluster engines reach it: address words (R169), the accesses that raise ADDR (R170, R204 to R206,
R238, R276), operands of this device and of other board positions (R309), bytes of a destination that the source covers (R172, R178),
and the segments of a descriptor (R164, R194).
-/
namespace Sys2Proof.Machine

/-- Where an address word points: another board position or this device, and the first byte past a cache that it names. -/
structure Target where
  pos : Option Nat
  pa : Nat
  lim : Option Nat
deriving DecidableEq, Repr

/-- Why a descriptor does not go on to its work: it faults, with a code of `CLU_ENG_FAULT` (R196), or an operand of another board
position has still to come: position, address, bytes, return address (R309). -/
inductive Stop where
  | fault (code : Nat)
  /-- A stack that serves no access now holds the engine (R480, R485). -/
  | hold
  | ask (pos pa n ret : Nat)
deriving DecidableEq, Repr

def badDesc : Stop := .fault 1
def badAddr : Stop := .fault 2
def badOrder : Stop := .fault 3

/-- Board-shared addressing is on now (R308). -/
def sharedNow (s : State) : Bool :=
  s.lnk.shared && (s.glb.state == .ready || s.glb.state == .running || s.glb.state == .quiesced)

/-- An address word of an engine of cluster g (R169, R170, R206). -/
def targetOf (s : State) (g word : Nat) : Except Stop Target :=
  if bits word 61 58 ≠ 0 then .error badDesc
  else
    match bits word 63 62 with
    | 0 =>
      let pos := bits word 57 56
      let here : Target := { pos := none, pa := bits word 55 0, lim := none }
      if sharedNow s then
        if pos = s.lnk.bpos then .ok here
        else if bit s.lnk.bmask pos then .ok { here with pos := some pos }
        else .error badAddr
      else if pos = 0 then .ok here
      else .error badAddr
    | 1 =>
      if bits word 57 26 ≠ 0 then .error badAddr
      else .ok { pos := none, pa := clusterAddr g (bits word 25 0), lim := some (clusterAddr g 0x3000000) }
    | 2 =>
      if bits word 57 28 ≠ 0 ∨ bits word 23 21 ≠ 0 ∨ bits word 27 24 ≥ 12 then .error badAddr
      else
        let c := 12 * g + bits word 27 24
        .ok { pos := none, pa := cacheAddr c (bits word 20 0), lim := some (cacheAddr c 0 + 0x200000) }
    | _ => .error badAddr

/-- The first address past the mapped extent that holds an address (R202). -/
def extentEnd (pa : Nat) : Nat :=
  match placeOf pa with
  | .fast _ _ => 0x7800000000
  | .dense st _ => denseAddr st 0xC00000000
  | .cluster g _ => clusterAddr g 0x3000000
  | .cache _ _ => 0x3013C000000
  | _ => 0

/-- A write of [pa, pa + n) is forbidden by the plan: its plan region, working copies, and in EVAL the kinds 1 to 5 (R204, R238,
R276). Regions name this device only. -/
def planForbids (s : State) (t : Target) (pa n : Nat) : Bool :=
  match s.run.plan with
  | none => false
  | some p =>
    (match placeOf pa with | .fast _ off => decide (off + n > planBase) | _ => false) ||
    (t.pos.isNone && p.regions.any fun r =>
      (r.kind == 1 || (s.run.phase == 6 && decide (1 ≤ r.kind ∧ r.kind ≤ 5))) && decide (r.base < pa + n ∧ pa < r.base + r.length))

/-- An engine of cluster g may access [pa, pa + n) behind a target. -/
def rangeOk (s : State) (g : Nat) (t : Target) (write : Bool) (pa n : Nat) : Bool :=
  n == 0 ||
  (decide (t.pa ≤ pa ∧ pa + n ≤ t.lim.getD (extentEnd pa)) &&
    (match placeOf pa with
      | .fast _ _ => true
      | .dense st _ => t.pos.isNone && decide (st / 2 = g / 4)
      | .cluster _ _ => true
      | .cache _ _ => true
      | _ => false) &&
    !(write && planForbids s t pa n))

/-- Rows of n bytes at a stride. -/
def rowsOk (s : State) (g : Nat) (t : Target) (write : Bool) (stride rows n : Nat) : Bool :=
  (List.range rows).all fun r => rangeOk s g t write (t.pa + r * stride) n

/-- Refuses a descriptor whose condition does not hold. -/
def require (ok : Bool) (stop : Stop) : Except Stop Unit := if ok then .ok () else .error stop

/-! ### Operands -/

/-- An address in a stack that serves no access now (R480, R485). -/
def placeHeld (s : State) (pa : Nat) : Bool :=
  match placeOf pa with
  | .fast n _ => !stackServes s n
  | .dense n _ => !stackServes s n
  | _ => false

/-- Reads bytes that engine e of cluster g computes with. Those of another board position are the operand that the engine has asked
for; where it has not, the descriptor stops and asks for them, to be returned to `ret` (R309). -/
def fetchAt (s : State) (g e : Nat) (t : Target) (pa n ret : Nat) : Except Stop (List Byte) :=
  match t.pos with
  | none => if placeHeld s pa then .error .hold else .ok (portRead s pa n)
  | some q =>
    if n = 0 then .ok []
    else
      match (s.engine g e).operands.find? fun o => o.pos == q && o.pa == pa && o.bytes.length == n with
      | some o => .ok o.bytes
      | none => .error (.ask q pa n ret)

/-- Reads rows, in order. -/
def fetchRows (s : State) (g e : Nat) (t : Target) (stride rows n ret : Nat) : Except Stop (List (List Byte)) :=
  (List.range rows).mapM fun r => fetchAt s g e t (t.pa + r * stride) n ret

/-- Rows that a descriptor reads on this device: base, stride, rows, bytes of a row. -/
structure Span where
  base : Nat
  stride : Nat
  rows : Nat
  bytes : Nat
deriving DecidableEq, Repr

/-- A span covers an address. -/
def Span.covers (p : Span) (a : Nat) : Bool :=
  if a < p.base ∨ p.rows = 0 then false
  else
    let r := if p.stride = 0 then 0 else Nat.min ((a - p.base) / p.stride) (p.rows - 1)
    decide (a < p.base + r * p.stride + p.bytes)

/-- The span of a target's rows; another board position shares no byte with this device. -/
def spanOf (t : Target) (stride rows bytes : Nat) : List Span :=
  if t.pos.isNone then [{ base := t.pa, stride := stride, rows := rows, bytes := bytes }] else []

/-- Output bytes as they are written: a byte whose address the sources cover is free (log 25). -/
def outputBytes (ticket : Nat) (t : Target) (sources : List Span) (pa : Nat) (bytes : List Byte) : List Byte :=
  (List.range bytes.length).map fun i =>
    if t.pos.isNone && sources.any (fun p => p.covers (pa + i)) then Config.freeByte ticket i else bytes.getD i 0

/-- Bytes of a segment (R164). -/
def segBytes : Nat := 65536

/-- Units of `n` in a count. -/
def unitsOf (n count : Nat) : Nat := (count + n - 1) / n

/-- The parts of `len` bytes that lie in the segments of the bytes written: `at` bytes of the descriptor come before them. Segment,
offset and length of each. -/
def segParts (start len : Nat) : List (Nat × Nat × Nat) :=
  (List.range ((start + len + segBytes - 1) / segBytes - start / segBytes)).map fun k =>
    let lo := Nat.max start ((start / segBytes + k) * segBytes)
    (start / segBytes + k, lo - start, Nat.min (start + len) ((start / segBytes + k + 1) * segBytes) - lo)

/-- The write of an output in segment k; `ticket` names its free bytes. -/
def putAct (ticket : Nat) (t : Target) (sources : List Span) (k pa : Nat) (bytes : List Byte) : Nat × Act :=
  (k, .put t.pos pa (outputBytes ticket t sources pa bytes))

/-- Writes of outputs in order, address and bytes of each, cut into segments; `start` bytes are written before them. -/
def putActs (t : Target) (sources : List Span) : Nat → Nat → List (Nat × List Byte) → List (Nat × Act)
  | _, _, [] => []
  | ticket, start, (pa, bytes) :: r =>
    let out := outputBytes ticket t sources pa bytes
    (segParts start bytes.length).map (fun p => (p.1, .put t.pos (pa + p.2.1) ((out.drop p.2.1).take p.2.2))) ++
      putActs t sources (ticket + 1) (start + bytes.length) r

/-- Asks another board position for rows that its replies write: source and destination address of each. -/
def askActs (q n : Nat) : Nat → List (Nat × Nat) → List (Nat × Act)
  | _, [] => []
  | start, (src, dst) :: r =>
    (segParts start n).map (fun p => (p.1, .ask q (src + p.2.1) p.2.2 (dst + p.2.1))) ++ askActs q n (start + n) r

/-- Copies rows unchanged: source and destination address of each. Rows of another board position are written here by its replies
(R309); others are all read before one is written. -/
def copyActs (s : State) (g e : Nat) (src dst : Target) (sources : List Span) (n : Nat) (l : List (Nat × Nat)) :
    Except Stop (List (Nat × Act)) :=
  match src.pos, dst.pos with
  | some q, none => .ok (askActs q n 0 l)
  | _, _ => do
    let data ← l.mapM fun r => fetchAt s g e src r.1 n r.2
    .ok (putActs dst sources (s.fresh + 1) 0 ((l.map (·.2)).zip data))

/-- What each of n segments does. -/
def segmentsOf (n : Nat) (acts : List (Nat × Act)) : List (List Act) :=
  (List.range n).map fun k => (acts.filter fun a => a.1 == k).map (·.2)

/-- Little-endian words of n bytes in a byte string; the number of words is given. -/
def wordsOf (n count : Nat) (bs : List Byte) : List Nat := (List.range count).map fun i => leNat ((bs.drop (n * i)).take n)

/-- Reserved bytes i to j of a descriptor are 0. -/
def zeroBytes (d i j : Nat) : Bool := decide (bits d (8 * j + 7) (8 * i) = 0)

/-! ### Sending (R189, R265) -/

/-- Sends bytes of a shard by a route of the current phase (R265). An entry that is not valid discards the transfer, which counts once.
The last word of a shard that does not fill it carries free bytes. -/
def sendPart (s : State) (route rtok dst : Nat) (bytes : List Byte) (first last : Bool) : State :=
  match routeEntry s s.run.phase route with
  | none => s
  | some r =>
    if !r.valid then (if last then countRouteDrop s (physPort s r.egress) else s)
    else
      let bytes := bytes ++ freeBytes s.fresh ((4 - bytes.length % 4) % 4)
      let f := { blankFlit s 1 with coded := (Config.freeByte s.fresh 4).getLsbD 0, route := BitVec.ofNat 16 r.next, rtok := BitVec.ofNat 16 rtok }
      let flits := (transferFlits f dst bytes).map fun f => { f with first := f.first && first, last := f.last && last }
      forEach flits (fun s f => if r.isLocal then deliver s f else sendFlit s (physPort s r.egress) f) s.ticket

/-! ### Segments (R164, R171, R194) -/

/-- Asks board position q for bytes, to be returned to `ret` of this device (R309). -/
def askAt (s : State) (g e q pa n ret : Nat) (keep : Bool) : State :=
  boardRead (s.modEngine g e fun x => { x with owed := x.owed ++ [{ lo := ret, hi := ret + n, keep := keep }] })
    q pa n (s.lnk.bpos * 2 ^ 56 + ret)

/-- One effect of a segment. -/
def doAct (g e : Nat) (s : State) : Act → State
  | .put none pa bytes => (portWrite s pa bytes).ticket
  | .put (some q) pa bytes => boardWrite s q pa bytes
  | .ask q pa n ret => askAt s g e q pa n ret true
  | .oob n => s.modCluster g fun c => { c with oob := satAdd 0xFFFFFFFF c.oob n }
  | .pads n => s.modCluster g fun c => { c with pads := satAdd 0xFFFFFFFF c.pads n }
  | .slot n v => s.modCluster g fun c => { c with rng := tput c.rng n v }
  | .map true l => s.modCluster g fun c => { c with sendMap := l }
  | .map false l => s.modCluster g fun c => { c with recvMap := l }
  | .send route rtok dst bytes first last => sendPart s route rtok dst bytes first last
  | .ovf on => raiseOvf s on
  | .coded raw => countBlock s raw
  | .erased gen kind status counter =>
    taintErasure (countErasure s 0 g { mode := 0, kind := kind, gen := gen, ulen := 0, clen := 0, crc := 0, resv := false }
      { status := status, counter := counter })

/-- An effect writes to a stack that serves no access now. -/
def Act.held (s : State) : Act → Bool
  | .put none pa _ => placeHeld s pa
  | _ => false

/-- Bytes that an effect writes. -/
def Act.written : Act → Nat
  | .put _ _ bytes => bytes.length
  | .ask _ _ n _ => n
  | _ => 0

/-- Counts bytes written by a DMA engine, in units of 4 KiB (R198). -/
def countDma (s : State) (g e n : Nat) : State :=
  if e ≤ 1 then
    s.modEngine g e fun x => { x with units := satAdd 0xFFFFFFFF x.units ((x.rest + n) / 4096), rest := (x.rest + n) % 4096 }
  else s

/-- Performs a segment. -/
def doSegment (g e : Nat) (s : State) (acts : List Act) : State :=
  countDma (forEach acts (doAct g e) s) g e ((acts.map Act.written).sum)

/-- A descriptor is in progress, and what its segments do is known; one that has nothing to do takes one segment. Each of its outputs
has taken a ticket. -/
def beginDesc (s : State) (g e d : Nat) (work : List (List Act)) : State :=
  { s.modEngine g e (fun x => { x with desc := d, work := some (if work.isEmpty then [[]] else work), waiting := none }) with
    fresh := s.fresh + 1 + work.flatten.length }

/-- A descriptor in progress asks another board position for an operand, and waits for it (R309). -/
def askOperand (s : State) (g e d q pa n ret : Nat) : State :=
  holdDesc (askAt (s.modEngine g e fun x =>
    { x with desc := d, work := none, operands := x.operands ++ [{ pos := q, pa := pa, ret := ret, bytes := List.replicate n 0 }] })
    g e q pa n ret false) g e

/-- The descriptor in progress goes on: it waits for the replies that it has asked for, performs its next segment where the stacks
serve it, or, after the last one, ends. A run that has ended has emptied the engine. -/
def goOn (s : State) (g e off : Nat) : State :=
  let x := s.engine g e
  if x.desc = 0 then s
  else if !x.owed.isEmpty then holdDesc s g e
  else
    match x.work with
    | none => s
    | some [] => runNops g nopFuel (endDesc s g e off x.desc)
    | some (acts :: rest) =>
      if acts.any (·.held s) then s else doSegment g e (s.modEngine g e fun x => { x with work := some rest, waiting := none }) acts

/-- A segment is performed; after the last one the descriptor ends at once where it waits for no reply. -/
def runSegment (s : State) (g e off : Nat) : State :=
  let s := goOn s g e off
  if (s.engine g e).work = some [] then goOn s g e off else s

/-- A descriptor that has passed the checks of its header: what its segments do is settled, from the operands as they stand, or it
meets a fault and performs nothing, or an operand of another board position has still to come. `begun` is the state in which it is in
progress. -/
def planDesc (s begun : State) (g e off d : Nat) (f : State → Nat → Except Stop (List (List Act))) : State :=
  match f s d with
  | .ok work => runSegment (beginDesc begun g e d work) g e off
  | .error (.fault code) => enginePlanFault s g e off code
  | .error .hold => s
  | .error (.ask q pa n ret) => askOperand begun g e d q pa n ret

/-- The form of an engine op: the head descriptor carries the opcode. It waits, or starts; it is checked; a faulting descriptor
performs nothing; else `f` gives what each of its segments does. Each command performs one segment (R164, R168, R170, R171, R194). -/
def engineOp (g e op : Nat) (f : State → Nat → Except Stop (List (List Act))) (s : State) : State :=
  if !engineRuns s g e then s
  else
    match headDesc s g e with
    | none => s
    | some off =>
      let x := s.engine g e
      if x.desc ≠ 0 then
        if dOp x.desc ≠ op then s
        else if x.work.isNone && x.owed.isEmpty then planDesc s s g e off x.desc f
        else runSegment s g e off
      else if off + 64 > 0x3000000 then enginePlanFault s g e off 2
      else
        let d := descAt s g off
        if !waitMet s g e d then holdDesc s g e
        else if !headerValid e d then enginePlanFault s g e off 1
        else if dOp d = 0 then runNops g nopFuel s
        else if dOp d ≠ op then s
        else planDesc s (startDesc s g e off d) g e off d f

end Sys2Proof.Machine
end

