-- ==== Sys2Proof/Machine/Engines.lean ====
section
/-!
DEFINITION. The cluster engines: DMA and skew, gather/scatter, transpose, table lookup, sort and top-k, random stream, codec,
collective and chain port (R174 to R193).
-/
namespace Sys2Proof.Machine

/-- Bytes of an element of formats 0 to 5 of R76 in half bytes. -/
def elemHalves (fmt : Nat) : Nat := halves fmt

/-- Address word of a body field. -/
def dword (d byte : Nat) : Nat := dbits d byte 63 0

/-! ### DMA and skew (R174, R175, R198) -/

/-- The reserved bits of a DMA body. -/
def dmaReserved (d : Nat) : Bool := decide (dbits d 40 7 4 = 0 ∧ dbits d 41 7 7 = 0) && zeroBytes d 42 43 && zeroBytes d 52 63

/-- COPY: 64 KiB written a segment. -/
def copyEffect (g e : Nat) (s : State) (d : Nat) : Except Stop (List (List Act)) := do
  let n := dbits d 24 31 0
  let rows := dbits d 28 31 0
  require (dmaReserved d && decide (1 ≤ n ∧ n ≤ 2 ^ 24)) badDesc
  let src ← targetOf s g (dword d 8)
  let dst ← targetOf s g (dword d 16)
  let ss := dbits d 32 31 0
  let ds := dbits d 36 31 0
  require (rowsOk s g src false ss rows n && rowsOk s g dst true ds rows n) badAddr
  let acts ← copyActs s g e src dst (spanOf src ss rows n) n ((List.range rows).map fun r => (src.pa + r * ss, dst.pa + r * ds))
  .ok (segmentsOf (unitsOf segBytes (rows * n)) acts)

/-- FILL: 64 KiB written a segment. -/
def fillEffect (g : Nat) (s : State) (d : Nat) : Except Stop (List (List Act)) := do
  let n := dbits d 24 31 0
  let rows := dbits d 28 31 0
  require (dmaReserved d && decide (1 ≤ n ∧ n ≤ 2 ^ 24)) badDesc
  let dst ← targetOf s g (dword d 16)
  let ds := dbits d 36 31 0
  require (rowsOk s g dst true ds rows n) badAddr
  let row := (List.range n).map fun b => BitVec.ofNat 8 (dbits d 48 31 0 >>> (8 * (b % 4)))
  .ok (segmentsOf (unitsOf segBytes (rows * n))
    (putActs dst [] (s.fresh + 1) 0 ((List.range rows).map fun r => (dst.pa + r * ds, row))))

/-- Codes of n elements from a byte string. -/
def unpackCodes (fmt n : Nat) (bs : List Byte) : List Nat :=
  if fmt = 4 then (List.range n).map fun k => bits (bs.getD (k / 2) 0).toNat (4 * (k % 2) + 3) (4 * (k % 2))
  else wordsOf (elemHalves fmt / 2) n bs

/-- Where a segment of a token starts: K-slice q, token t (R119). -/
def sliceAt (base ne fmt q t : Nat) : Nat :=
  let l := if fmt = 4 then 64 else 32 * elemHalves fmt
  if fmt = 4 then base + (q * ne + t % ne) * l + t / ne * 32 else base + (q * ne + t) * l

/-- Bytes of n elements, the last nibble of an odd number counted whole. -/
def codeBytes (fmt n : Nat) : Nat := (n * elemHalves fmt + 1) / 2

/-- The bytes of a token's segment of a K-slice; beside an odd last nibble the byte keeps what it holds. -/
def sliceBytesAt (s : State) (g e : Nat) (t : Target) (fmt pa : Nat) (codes : List Nat) : Except Stop (List Byte) :=
  if fmt = 4 ∧ codes.length % 2 = 1 then do
    let old ← fetchAt s g e t (pa + codes.length / 2) 1 pa
    .ok (packCodes fmt (codes ++ [(old.getD 0 0).toNat / 16]))
  else .ok (packCodes fmt codes)

/-- SKEW: 64 KiB written a segment. -/
def skewEffect (g e : Nat) (s : State) (d : Nat) : Except Stop (List (List Act)) := do
  let rows := dbits d 28 31 0
  let ss := dbits d 32 31 0
  let fmt := dbits d 40 2 0
  let padEn := bit (dbits d 40 7 0) 3
  let ne := dbits d 41 6 0
  let k := dbits d 44 31 0
  require (dmaReserved d && decide (fmt ≤ 5 ∧ 1 ≤ ne ∧ ne ≤ 64 ∧ 1 ≤ k ∧ k ≤ 2 ^ 25 ∧ rows ≤ (if fmt = 4 then 2 * ne else ne)) &&
    decide (bits (dword d 16) 5 0 = 0)) badDesc
  let src ← targetOf s g (dword d 8)
  let dst ← targetOf s g (dword d 16)
  let slices := (k + 63) / 64
  let count (q : Nat) : Nat := if padEn then 64 else Nat.min 64 (k - 64 * q)
  let segs := (List.range rows).flatMap fun t => (List.range slices).map fun q => (t, q)
  require (rowsOk s g src false ss rows (codeBytes fmt k) &&
    segs.all fun x => rangeOk s g dst true (sliceAt dst.pa ne fmt x.2 x.1) (codeBytes fmt (count x.2))) badAddr
  let data ← fetchRows s g e src ss rows (codeBytes fmt k) dst.pa
  let pad := dbits d 48 31 0 % 2 ^ (4 * elemHalves fmt)
  let tokens := data.map fun bs => unpackCodes fmt k bs ++ List.replicate (64 * slices - k) pad
  let outs ← segs.mapM fun x => do
    let pa := sliceAt dst.pa ne fmt x.2 x.1
    let bytes ← sliceBytesAt s g e dst fmt pa (((tokens.getD x.1 []).drop (64 * x.2)).take (count x.2))
    .ok (pa, bytes)
  -- The pads of a token are written with its last slice.
  let perToken := ((List.range slices).map fun q => codeBytes fmt (count q)).sum
  let pads := if padEn then (List.range rows).map fun t => (((t + 1) * perToken - 1) / segBytes, Act.pads (64 * slices - k)) else []
  .ok (segmentsOf (unitsOf segBytes (rows * perToken))
    (putActs dst (spanOf src ss rows (codeBytes fmt k)) (s.fresh + 1) 0 outs ++ pads))

/-! ### Gather and scatter (R176, R177) -/

/-- Element-wise sum of two rows in FP32 or BF16, each addition rounded to nearest even. -/
def addRows (bf16 : Bool) (a b : List Byte) : List Byte :=
  if bf16 then
    let n := a.length / 2
    ((wordsOf 2 n a).zip (wordsOf 2 n b)).flatMap fun x =>
      leBytes 2 (convertNum .bf16 false ((decodeNum .bf16 x.1).add (decodeNum .bf16 x.2))).1
  else
    let n := a.length / 4
    ((wordsOf 4 n a).zip (wordsOf 4 n b)).flatMap fun x => leBytes 4 (add32 (BitVec.ofNat 32 x.1) (BitVec.ofNat 32 x.2)).toNat

/-- The rows of a table that indices name. -/
def rowSpans (t : Target) (stride n : Nat) (rows : List Nat) : List Span :=
  rows.eraseDups.flatMap fun r => spanOf { t with pa := t.pa + r * stride } 0 1 n

/-- Segments of rows of n bytes, one to each index: 64 KiB or 256 indices, whichever ends first. The parts of row i, as `segParts` gives
them. -/
def rowSegs (n count : Nat) : Nat := if n ≤ segBytes then unitsOf (Nat.min 256 (segBytes / n)) count else count * unitsOf segBytes n
def rowParts (n i : Nat) : List (Nat × Nat × Nat) :=
  if n ≤ segBytes then [(i / Nat.min 256 (segBytes / n), 0, n)]
  else (segParts 0 n).map fun p => (i * unitsOf segBytes n + p.1, p.2)

/-- The write of a row of a gather or scatter, in its parts. -/
def rowPuts (ticket : Nat) (t : Target) (sources : List Span) (i pa : Nat) (bytes : List Byte) : List (Nat × Act) :=
  let out := outputBytes ticket t sources pa bytes
  (rowParts bytes.length i).map fun p => (p.1, .put t.pos (pa + p.2.1) ((out.drop p.2.1).take p.2.2))

/-- SCATTER_ADD: the sums in list order, from the rows as they stand. `rows` holds the table rows written so far. -/
def addIndexed (s : State) (g : Nat) (list table : Target) (n trows tstride : Nat) (bf16 : Bool) :
    List (Nat × Nat) → Tab (List Byte) → Except Stop (List (Nat × Act))
  | [], _ => .ok []
  | (i, x) :: r, rows =>
    if trows ≤ x then addIndexed s g list table n trows tstride bf16 r rows
    else do
      let pa := table.pa + x * tstride
      let add ← fetchAt s g 2 list (list.pa + i * n) n pa
      let old ← match tfind rows pa with
        | some bs => .ok bs
        | none => fetchAt s g 2 table pa n pa
      let sum := addRows bf16 old add
      let rest ← addIndexed s g list table n trows tstride bf16 r (tput rows pa sum)
      .ok (rowPuts 0 table [] i pa sum ++ rest)

/-- GATHER (op 1), SCATTER (op 2) and SCATTER_ADD (op 3). DESIGN CHOICE (log 79): the 'multiple of 4' and 'of 2' of ROW_BYTES bind
SCATTER_ADD alone, which AFMT belongs to; and a SCATTER_ADD whose table rows lie over its own LIST or IDX computes with the bytes that
they held when it started. -/
def gatherEffect (op g : Nat) (s : State) (d : Nat) : Except Stop (List (List Act)) := do
  let count := dbits d 32 31 0
  let n := dbits d 36 31 0
  let trows := dbits d 40 31 0
  let tstride := dbits d 44 31 0
  let afmt := dbits d 48 1 0
  require (decide (1 ≤ n ∧ n ≤ 2 ^ 20) && decide (dbits d 48 7 2 = 0) && zeroBytes d 49 63 &&
    (op != 3 || decide ((afmt = 0 ∧ n % 4 = 0) ∨ (afmt = 1 ∧ n % 2 = 0)))) badDesc
  let table ← targetOf s g (dword d 8)
  let list ← targetOf s g (dword d 16)
  let idxT ← targetOf s g (dword d 24)
  require (rangeOk s g idxT false idxT.pa (4 * count) && rowsOk s g list (op == 1) n count n) badAddr
  let raw ← fetchAt s g 2 idxT idxT.pa (4 * count) (if op = 1 then list.pa else table.pa)
  let idx := wordsOf 4 count raw
  let order := (List.range count).zip idx
  let used := order.filter fun x => decide (x.2 < trows)
  require (used.all fun x => rangeOk s g table (op != 1) (table.pa + x.2 * tstride) n) badAddr
  let oob := (order.filter fun x => decide (trows ≤ x.2 ∧ x.2 ≠ 0xFFFFFFFF)).map fun x => (((rowParts n x.1).headD (0, 0, 0)).1, Act.oob 1)
  let tableSpans := rowSpans table tstride n (used.map (·.2))
  let listSpans := used.flatMap fun x => spanOf { list with pa := list.pa + x.1 * n } 0 1 n
  let spans := spanOf idxT 0 1 (4 * count) ++ (if op = 1 then tableSpans else listSpans)
  let acts ←
    if op = 3 then addIndexed s g list table n trows tstride (afmt == 1) order []
    else (do
      let l ← (if op = 1 then order else used).mapM fun x => do
        let lrow := list.pa + x.1 * n
        let trow := table.pa + x.2 * tstride
        if op = 1 then
          match table.pos, list.pos with
          | some q, none =>
            if x.2 < trows then .ok ((rowParts n x.1).map fun p => (p.1, Act.ask q (trow + p.2.1) p.2.2 (lrow + p.2.1)))
            else .ok (rowPuts (s.fresh + 1 + x.1) list spans x.1 lrow (List.replicate n 0))
          | _, _ => do
            let bs ← if x.2 < trows then fetchAt s g 2 table trow n lrow else .ok (List.replicate n 0)
            .ok (rowPuts (s.fresh + 1 + x.1) list spans x.1 lrow bs)
        else do
          let bs ← fetchAt s g 2 list lrow n trow
          .ok (rowPuts (s.fresh + 1 + x.1) table spans x.1 trow bs)
      .ok l.flatten)
  .ok (segmentsOf (rowSegs n count) (acts ++ oob))

/-! ### Transpose (R178) -/

/-- TRANSPOSE: 64 KiB written a segment. -/
def transposeEffect (g : Nat) (s : State) (d : Nat) : Except Stop (List (List Act)) := do
  let rows := dbits d 24 31 0
  let cols := dbits d 28 31 0
  let ss := dbits d 32 31 0
  let ds := dbits d 36 31 0
  let ew := dbits d 40 1 0
  require (decide (dbits d 40 7 2 = 0) && zeroBytes d 41 63 && decide (rows ≤ 65536 ∧ 1 ≤ cols ∧ cols ≤ 65536) &&
    (ew != 0 || decide (rows % 2 = 0 ∧ cols % 2 = 0))) badDesc
  let src ← targetOf s g (dword d 8)
  let dst ← targetOf s g (dword d 16)
  let fmt := [4, 5, 1, 0].getD ew 0
  let sn := codeBytes fmt cols
  let dn := codeBytes fmt rows
  require (rowsOk s g src false ss rows sn && rowsOk s g dst true ds cols dn) badAddr
  let data ← fetchRows s g 3 src ss rows sn dst.pa
  let codes := data.map fun bs => unpackCodes fmt cols bs
  .ok (segmentsOf (unitsOf segBytes (cols * dn)) (putActs dst (spanOf src ss rows sn) (s.fresh + 1) 0 ((List.range cols).map fun c =>
    (dst.pa + c * ds, packCodes fmt (codes.map fun r => r.getD c 0)))))

/-! ### Table lookup (R179 to R181) -/

/-- Result of a bag: the sum in list order, the mean, or the maximum of the contributing rows' elements. -/
def combineBag (comb : Nat) (xs : List W32) : W32 :=
  match xs with
  | [] => if comb = 2 then 0xFF800000 else 0
  | x :: r =>
    if comb = 2 then toF32 (r.foldl (fun a v => Num.max2 a (ofF32 v)) (ofF32 x))
    else
      let sum := r.foldl add32 x
      if comb = 1 then toF32 ((ofF32 sum).div (.ofInt xs.length)) else sum

/-- LOOKUP: 64 identifiers a segment; a bag is written with its last identifier. DESIGN CHOICE (log 79): to OFMT FP32 a NaN result sets
SAT too, as for a conversion of R51. -/
def lookupEffect (g : Nat) (s : State) (d : Nat) : Except Stop (List (List Act)) := do
  let hmul := dword d 40
  let bags := dbits d 48 31 0
  let dim := dbits d 52 15 0
  let fl := dbits d 54 7 0
  let tfmt := bits fl 1 0
  let bfOut := bit fl 2
  let comb := bits fl 4 3
  let hash := bit fl 5
  let wtEn := bit fl 6
  let tbits := dbits d 55 4 0
  let trows := dbits d 56 31 0
  require (decide (1 ≤ dim ∧ dim ≤ 4096 ∧ comb ≠ 3) && !bit fl 7 && decide (dbits d 55 7 5 = 0) && zeroBytes d 60 63 &&
    (!hash || decide (1 ≤ tbits ∧ tbits ≤ 28))) badDesc
  let table ← targetOf s g (dword d 8)
  let ids ← targetOf s g (dword d 16)
  let offsT ← targetOf s g (dword d 24)
  let out ← targetOf s g (dword d 32)
  if bags = 0 then .ok []
  else
    let w := elemHalves tfmt / 2
    let wo := if bfOut then 2 else 4
    let en := if wtEn then 16 else 8
    require (rangeOk s g offsT false offsT.pa (4 * (bags + 1)) && rangeOk s g out true out.pa (bags * dim * wo + bags)) badAddr
    let rawOffs ← fetchAt s g 4 offsT offsT.pa (4 * (bags + 1)) out.pa
    let offs := wordsOf 4 (bags + 1) rawOffs
    require ((List.range bags).all fun b => decide (offs.getD b 0 ≤ offs.getD (b + 1) 0)) badOrder
    let lo := offs.getD 0 0
    let n := offs.getD bags 0 - lo
    require (rangeOk s g ids false (ids.pa + en * lo) (en * n)) badAddr
    let rawIds ← fetchAt s g 4 ids (ids.pa + en * lo) (en * n) out.pa
    let entries := wordsOf en n rawIds
    let rowOf (x : Nat) : Option Nat :=
      let id := x % 2 ^ 64
      if hash then some (id * hmul % 2 ^ 64 / 2 ^ (64 - tbits)) else if id < trows then some id else none
    let used := entries.filterMap rowOf
    require (used.all fun r => rangeOk s g table false (table.pa + r * dim * w) (dim * w)) badAddr
    let oob := ((List.range n).zip entries).filter (fun x => (rowOf x.2).isNone) |>.map fun x => (x.1 / 64, Act.oob 1)
    -- The widened and weighted row of each entry that contributes.
    let rows ← entries.mapM fun x =>
      match rowOf x with
      | none => .ok none
      | some r => do
        let bs ← fetchAt s g 4 table (table.pa + r * dim * w) (dim * w) out.pa
        let vals := (wordsOf w dim bs).map fun c => widen (fmtOf tfmt) c
        .ok (some (if wtEn then vals.map fun v => mul32 v (BitVec.ofNat 32 (x / 2 ^ 64)) else vals))
    let spans := rowSpans table (dim * w) (dim * w) used ++ spanOf { ids with pa := ids.pa + en * lo } 0 1 (en * n) ++
      spanOf offsT 0 1 (4 * (bags + 1))
    let outs := (List.range bags).flatMap fun b =>
      let mine := ((rows.drop (offs.getD b 0 - lo)).take (offs.getD (b + 1) 0 - offs.getD b 0)).filterMap id
      let vals := (List.range dim).map fun j =>
        convertNum (if bfOut then .bf16 else .fp32) false (ofF32 (combineBag comb (mine.map fun r => r.getD j 0)))
      let st := { statusOf vals with empty := mine.isEmpty, ovf := false }
      let k := (offs.getD (b + 1) 0 - lo - 1) / 64
      [putAct (s.fresh + 1 + 2 * b) out spans k (out.pa + b * dim * wo) (vals.flatMap fun v => leBytes wo v.1),
       putAct (s.fresh + 2 + 2 * b) out spans k (out.pa + bags * dim * wo + b) [st.byte]]
    .ok (segmentsOf (Nat.max 1 (unitsOf 64 n)) (outs ++ oob))

/-! ### Sort and top-k (R182, R183) -/

/-- The key is a NaN. -/
def keyNan (kfmt key : Nat) : Bool := kfmt != 2 && (decodeNum (if kfmt = 0 then .fp32 else .bf16) key).isNan

/-- A key as it is passed on: a NaN becomes the canonical NaN of its format (R47). -/
def passKey (kfmt key : Nat) : Nat :=
  if keyNan kfmt key then (if kfmt = 0 then NumFmt.fp32 else .bf16).nanCode else key

/-- Key a comes strictly before key b. -/
def keyBefore (kfmt : Nat) (desc : Bool) (a b : Nat) : Bool :=
  if kfmt = 2 then if desc then decide (signedOf 32 b < signedOf 32 a) else decide (signedOf 32 a < signedOf 32 b)
  else if keyNan kfmt a then false
  else if keyNan kfmt b then true
  else
    let f : NumFmt := if kfmt = 0 then .fp32 else .bf16
    if desc then Num.lt true (decodeNum f b) (decodeNum f a) else Num.lt true (decodeNum f a) (decodeNum f b)

/-- Puts an entry behind every entry that it does not come before: equal keys keep their input order. -/
def insertKey (kfmt : Nat) (desc : Bool) (x : Nat × Nat) : List (Nat × Nat) → List (Nat × Nat)
  | [] => [x]
  | y :: r => if keyBefore kfmt desc x.1 y.1 then x :: y :: r else y :: insertKey kfmt desc x r

/-- A row sorted. -/
def sortRow (kfmt : Nat) (desc : Bool) (l : List (Nat × Nat)) : List (Nat × Nat) :=
  l.foldl (fun acc x => insertKey kfmt desc x acc) []

/-- The key of entries past the end of a row (R68). -/
def padKey (kfmt : Nat) (desc : Bool) : Nat :=
  if kfmt = 2 then (if desc then 0x80000000 else 0x7FFFFFFF)
  else if kfmt = 1 then (if desc then 0xFF80 else 0x7F80)
  else if desc then 0xFF800000 else 0x7F800000

/-- SORT (op 1) and TOPK (op 2): a row takes a segment, or one for each 4,096 keys, with the last of which it is written (log 77). -/
def sortEffect (op g : Nat) (s : State) (d : Nat) : Except Stop (List (List Act)) := do
  let len := dbits d 40 31 0
  let rows := dbits d 44 31 0
  let kout := dbits d 48 15 0
  let fl := dbits d 50 7 0
  let kfmt := bits fl 1 0
  let desc := bit fl 2
  let useIdx := bit fl 3
  require (decide (len ≤ 65536 ∧ kfmt ≠ 3 ∧ bits fl 7 4 = 0) && zeroBytes d 51 63 && (op != 2 || decide (1 ≤ kout ∧ kout ≤ 1024))) badDesc
  let keys ← targetOf s g (dword d 8)
  let vals ← if useIdx then .ok keys else targetOf s g (dword d 16)
  let okeys ← targetOf s g (dword d 24)
  let ovals ← targetOf s g (dword d 32)
  if len = 0 then .ok []
  else
    let w := if kfmt = 1 then 2 else 4
    let nOut := if op = 2 then kout else len
    require (rangeOk s g keys false keys.pa (rows * len * w) && (useIdx || rangeOk s g vals false vals.pa (rows * len * 4)) &&
      rangeOk s g okeys true okeys.pa (rows * nOut * w) && rangeOk s g ovals true ovals.pa (rows * nOut * 4)) badAddr
    let kraw ← fetchAt s g 5 keys keys.pa (rows * len * w) okeys.pa
    let vraw ← if useIdx then .ok [] else fetchAt s g 5 vals vals.pa (rows * len * 4) ovals.pa
    let spans := spanOf keys 0 1 (rows * len * w) ++ (if useIdx then [] else spanOf vals 0 1 (rows * len * 4))
    let passes := unitsOf 4096 len
    .ok (segmentsOf (rows * passes) ((List.range rows).flatMap fun r =>
      let ks := (wordsOf w len (kraw.drop (r * len * w))).map (passKey kfmt)
      let ps := if useIdx then List.range len else wordsOf 4 len (vraw.drop (r * len * 4))
      let sorted := sortRow kfmt desc (ks.zip ps) ++ List.replicate (nOut - len) (padKey kfmt desc, 0xFFFFFFFF)
      let o := sorted.take nOut
      let k := r * passes + (passes - 1)
      [putAct (s.fresh + 1 + 2 * r) okeys spans k (okeys.pa + r * nOut * w) (o.flatMap fun x => leBytes w x.1),
       putAct (s.fresh + 2 + 2 * r) ovals spans k (ovals.pa + r * nOut * 4) (o.flatMap fun x => leBytes 4 x.2)]))

/-! ### Random stream (R184, R185) -/

/-- SETSLOT. -/
def setslotEffect (_ : State) (d : Nat) : Except Stop (List (List Act)) := do
  require (decide (dbits d 8 7 6 = 0) && zeroBytes d 9 11 && zeroBytes d 32 63) badDesc
  let v : W32 × BitVec 128 := (BitVec.ofNat 32 (dbits d 12 31 0), BitVec.ofNat 128 (dbits d 16 127 0))
  .ok [[.slot (dbits d 8 3 0) v]]

/-- Word i of a slot's stream. -/
def randomWord (seed : Nat) (slot : W32 × BitVec 128) (i : Nat) : Nat :=
  philoxWord ((seed % 2 ^ 32) ^^^ slot.1.toNat) (2 ^ 32 - 1 - seed / 2 ^ 32 % 2 ^ 32) ((slot.2.toNat + i / 4) % 2 ^ 128) (i % 4)

/-- GEN: 4,096 words a segment, with which the slot counter moves on. -/
def genEffect (g : Nat) (s : State) (d : Nat) : Except Stop (List (List Act)) := do
  let slotNo := dbits d 8 3 0
  let mode := dbits d 8 5 4
  let n := dbits d 24 31 0
  require (decide (dbits d 8 7 6 = 0 ∧ mode ≠ 3) && zeroBytes d 9 11 && zeroBytes d 32 63) badDesc
  let dst ← targetOf s g (dword d 16)
  require (rangeOk s g dst true dst.pa (if mode = 2 then (n + 7) / 8 else 4 * n)) badAddr
  let slot := tget (0, 0) (s.cluster g).rng slotNo
  let ws := (List.range n).map (randomWord s.glb.rseed slot)
  -- Bits of the last byte that no word gives stay as they are.
  let old ← if mode = 2 ∧ n % 8 ≠ 0 then fetchAt s g 6 dst (dst.pa + n / 8) 1 dst.pa else .ok []
  let out : List Byte :=
    if mode = 0 then ws.flatMap fun w => leBytes 4 w
    else if mode = 1 then ws.flatMap fun w => leBytes 4 (toF32 (.fin false (w / 256) (-24))).toNat
    else
      (List.range ((n + 7) / 8)).map fun k =>
        BitVec.ofNat 8 ((List.range 8).foldl (fun a j =>
          a + b2n (match ws[8 * k + j]? with | some w => decide (w < dbits d 28 31 0) | none => (old.getD 0 0).getLsbD j) * 2 ^ j) 0)
  let size := if mode = 2 then 512 else 16384
  .ok ((List.range (unitsOf 4096 n)).map fun k =>
    [.put dst.pos (dst.pa + k * size) ((out.drop (k * size)).take size),
     .slot slotNo (slot.1, slot.2 + BitVec.ofNat 128 (Nat.min (1024 * (k + 1)) ((n + 3) / 4)))])

/-! ### Codec (R186, R187, R316, R322, R324) -/

/-- ENCODE: one block a segment. DESIGN CHOICE (log 79): a DST that is no multiple of 64 is moved up to one, where R316 starts a block,
and raises nothing. -/
def encodeEffect (g : Nat) (s : State) (d : Nat) : Except Stop (List (List Act)) := do
  let len := dbits d 32 31 0
  let kind := dbits d 36 2 0
  let gen := dbits d 37 7 0
  require (decide (dbits d 36 7 3 = 0) && zeroBytes d 38 63 && (gen == 0 || s.fw.gens.any fun x => x.gen == gen)) badDesc
  let src ← targetOf s g (dword d 8)
  let dst ← targetOf s g (dword d 16)
  let res ← targetOf s g (dword d 24)
  let blocks := unitsOf 65536 len
  require (rangeOk s g src false src.pa len && rangeOk s g res true res.pa (4 * blocks)) badAddr
  let data ← fetchAt s g 7 src src.pa len dst.pa
  let coded := (List.range blocks).map fun i => encodeBlock s gen kind ((data.drop (65536 * i)).take 65536)
  let out := coded.map fun b => b.1 ++ List.replicate (pad64 b.1.length) 0
  let base := dst.pa + pad64 dst.pa
  require (rangeOk s g dst true base out.flatten.length) badAddr
  let spans := spanOf src 0 1 len
  .ok ((List.range blocks).map fun i =>
    let b := coded.getD i ([], true)
    [(putAct (s.fresh + 1 + 2 * i) dst spans i (base + (out.take i).flatten.length) (out.getD i [])).2,
     (putAct (s.fresh + 2 + 2 * i) res spans i (res.pa + 4 * i) (leBytes 4 b.1.length)).2, .coded b.2])

/-- A block read: its header, where there is one, and its bytes or its erasure. -/
abbrev BlockRead := Option BlockHead × Except Erasure (List Byte)

/-- Blocks read one after another. After a block whose end cannot be found, none is read. The number of blocks is the fuel. -/
def readBlocks (s : State) (g : Nat) (src : Target) (limit ret : Nat) : Nat → Nat → Except Stop (List BlockRead)
  | 0, _ => .ok []
  | n + 1, pa =>
    if pa + 16 > limit then .ok (List.replicate (n + 1) (none, .error erasedMal))
    else do
      let hb ← fetchAt s g 7 src pa 16 ret
      let h := readHead hb
      let room := limit - pa
      if headLost h room then .ok ((some h, .error erasedMal) :: List.replicate n (none, .error erasedMal))
      else do
        let pay ← fetchAt s g 7 src (pa + 16) (Nat.min h.clen (room - 16)) ret
        let rest ← readBlocks s g src limit ret n (pa + 16 + h.clen + pad64 (16 + h.clen))
        .ok ((some h, decodeBlock s h room pay) :: rest)

/-- Bytes of the output that a block names; where its header fails check 2 it names none that could be checked. -/
def BlockRead.size (x : BlockRead) : Nat :=
  match x with
  | (some _, .ok bs) => bs.length
  | (some h, .error _) => Nat.min h.ulen 65536
  | (none, _) => 0
def BlockRead.known (x : BlockRead) : Bool :=
  match x with
  | (some h, .error _) => !headLost h 0x100000
  | _ => true

/-- DECODE: one block a segment. An erased block leaves its output bytes and the length of its RESULT unspecified. -/
def decodeEffect (g : Nat) (s : State) (d : Nat) : Except Stop (List (List Act)) := do
  let n := dbits d 32 31 0
  require (decide (dbits d 36 7 3 = 0) && zeroBytes d 38 63) badDesc
  let src ← targetOf s g (dword d 8)
  let dst ← targetOf s g (dword d 16)
  let res ← targetOf s g (dword d 24)
  if n = 0 then .ok []
  else
    require (rangeOk s g src false src.pa 16 && rangeOk s g res true res.pa (4 * n)) badAddr
    let limit := src.lim.getD (extentEnd src.pa)
    let l ← readBlocks s g src limit dst.pa n src.pa
    let fits (i : Nat) (x : BlockRead) : Bool := rangeOk s g dst true (dst.pa + 65536 * i) x.size
    require (((List.range n).zip l).all fun b => !b.2.known || fits b.1 b.2) badAddr
    let used := l.foldl (fun a x => match x.1 with
      | some h => if headLost h (limit - src.pa - a) then a + 16 else a + 16 + h.clen + pad64 (16 + h.clen)
      | none => a) 0
    let spans := spanOf src 0 1 used
    .ok (((List.range n).zip l).map fun b =>
      let at64 := dst.pa + 65536 * b.1
      let word := res.pa + 4 * b.1
      let t := s.fresh + 1 + 2 * b.1
      match b.2 with
      | (_, .ok bs) => [(putAct t dst spans 0 at64 bs).2, (putAct (t + 1) res spans 0 word (leBytes 4 bs.length)).2]
      | (h, .error e) =>
        (if fits b.1 b.2 then [.put dst.pos at64 (freeBytes t b.2.size)] else []) ++
        [.put res.pos word (freeBytes (t + 1) 3 ++ [BitVec.ofNat 8 e.status]),
         .erased ((h.map (·.gen)).getD 0) ((h.map (·.kind)).getD 0) e.status e.counter])

/-! ### Collective (R188 to R190, R273) -/

/-- SEND: 64 KiB sent a segment, and one segment where LEN is 0. A write of the plan region, or of this device's working copies, is
refused as for any engine (R204, R238, R276). -/
def sendEffect (g : Nat) (s : State) (d : Nat) : Except Stop (List (List Act)) := do
  let fmt := dbits d 8 2 0
  let n := dbits d 12 31 0 * (elemHalves fmt / 2)
  let dst := dword d 32
  let route := dbits d 10 15 0
  require (decide (fmt ≤ 3) && !bit (dbits d 8 7 0) 7 && zeroBytes d 9 9 && zeroBytes d 42 43 && zeroBytes d 48 63 &&
    decide (bits dst 61 58 = 0)) badDesc
  let src ← targetOf s g (dword d 16)
  require (rangeOk s g src false src.pa n && (n == 0 || (decide (dst < 2 ^ 56) && landsAt dst && landsAt (dst + n - 1)))) badAddr
  match routeEntry s s.run.phase route with
  | none => .error badDesc
  | some r =>
    let target : Target := { pos := if r.isLocal then none else some 0, pa := dst, lim := none }
    require (n == 0 || !planForbids s target dst n) badAddr
    let bytes ← fetchAt s g 8 src src.pa n src.pa
    let m := Nat.max 1 (unitsOf segBytes n)
    .ok ((List.range m).map fun k =>
      [.send route (dbits d 40 15 0) (dst + k * segBytes) ((bytes.drop (k * segBytes)).take segBytes) (k == 0) (k + 1 == m)])

/-- RECV_SUM (op 2), RECV_MAX (op 3), RECV_MIN (op 4) and RECV_COPY (op 5): 64 KiB written a segment. DESIGN CHOICE (log 79): to OFMT
FP32 a NaN result sets SAT, and OVF in gradient class, as for a conversion of R51; and a DST that is SRC or SRC2 at equal widths replaces
it element by element. -/
def recvEffect (op g : Nat) (s : State) (d : Nat) : Except Stop (List (List Act)) := do
  let fl := dbits d 8 7 0
  let ifmt := bits fl 2 0
  let ofmt := bits fl 5 3
  let gclass := bit fl 6
  let len := dbits d 12 31 0
  let scale : W32 := BitVec.ofNat 32 (dbits d 44 31 0)
  require (decide (ifmt ≤ 3 ∧ ofmt ≤ 3) && !bit fl 7 && zeroBytes d 9 9 && zeroBytes d 42 43 && zeroBytes d 48 63) badDesc
  let src ← targetOf s g (dword d 16)
  let src2 ← targetOf s g (dword d 24)
  let dst ← targetOf s g (dword d 32)
  let w := elemHalves ifmt / 2
  let wo := elemHalves ofmt / 2
  require (rangeOk s g src false src.pa (len * w) && rangeOk s g src2 false src2.pa (len * w) && rangeOk s g dst true dst.pa (len * wo)) badAddr
  -- RECV_COPY reads SRC2 alone.
  let a ← if op = 5 then .ok [] else fetchAt s g 8 src src.pa (len * w) dst.pa
  let b ← fetchAt s g 8 src2 src2.pa (len * w) dst.pa
  let join (x y : W32) : W32 :=
    if op = 2 then add32 x y
    else if op = 3 then toF32 ((ofF32 x).max2 (ofF32 y))
    else if op = 4 then toF32 ((ofF32 x).min2 (ofF32 y))
    else y
  let read1 := if op = 5 then [] else spanOf src 0 1 (len * w)
  let ys := wordsOf w len b
  let vals := ((if op = 5 then ys else wordsOf w len a).zip ys).map fun x =>
    convertNum (fmtOf ofmt) gclass (ofF32 (mul32 (join (widen (fmtOf ifmt) x.1) (widen (fmtOf ifmt) x.2)) scale))
  let spans := if dst.pa = src.pa ∧ w = wo then spanOf src2 0 1 (len * w)
    else if dst.pa = src2.pa ∧ w = wo then read1
    else read1 ++ spanOf src2 0 1 (len * w)
  let each := segBytes / wo
  let m := unitsOf each len
  let flags := (List.range m).map fun k => (k, Act.ovf (statusOf ((vals.drop (k * each)).take each)).ovf)
  .ok (segmentsOf m (putActs dst spans (s.fresh + 1) 0 [(dst.pa, vals.flatMap fun v => leBytes wo v.1)] ++ flags))

/-! ### Chain port (R191, R192) -/

/-- MAP_SEND (op 1) and MAP_RECV (op 2). -/
def mapEffect (op g : Nat) (s : State) (d : Nat) : Except Stop (List (List Act)) := do
  let n := dbits d 16 31 0
  require (zeroBytes d 20 63 && decide (n ≤ (if op = 1 then 48 else 256))) badDesc
  let map ← targetOf s g (dword d 8)
  if n = 0 then .ok []
  else
    require (rangeOk s g map false map.pa (8 * n)) badAddr
    let bs ← fetchAt s g 9 map map.pa (8 * n) map.pa
    .ok [[.map (op == 1) ((wordsOf 8 n bs).map (BitVec.ofNat 64))]]

/-! ### Meanings -/

/-- COPY (R174). -/
def execDmaCopy (g eng : Nat) (s : State) : Out := guarded (.dmaCopy g eng) s (engineOp g eng 1 (copyEffect g eng))
/-- SKEW (R175). -/
def execDmaSkew (g eng : Nat) (s : State) : Out := guarded (.dmaSkew g eng) s (engineOp g eng 2 (skewEffect g eng))
/-- FILL (R175). -/
def execDmaFill (g eng : Nat) (s : State) : Out := guarded (.dmaFill g eng) s (engineOp g eng 3 (fillEffect g))
/-- GATHER (R177). -/
def execEngGather (g : Nat) (s : State) : Out := guarded (.engGather g) s (engineOp g 2 1 (gatherEffect 1 g))
/-- SCATTER (R177). -/
def execEngScatter (g : Nat) (s : State) : Out := guarded (.engScatter g) s (engineOp g 2 2 (gatherEffect 2 g))
/-- SCATTER_ADD (R177). -/
def execEngScatterAdd (g : Nat) (s : State) : Out := guarded (.engScatterAdd g) s (engineOp g 2 3 (gatherEffect 3 g))
/-- TRANSPOSE (R178). -/
def execEngTranspose (g : Nat) (s : State) : Out := guarded (.engTranspose g) s (engineOp g 3 1 (transposeEffect g))
/-- LOOKUP (R180, R181). -/
def execEngLookup (g : Nat) (s : State) : Out := guarded (.engLookup g) s (engineOp g 4 1 (lookupEffect g))
/-- SORT (R183). -/
def execEngSort (g : Nat) (s : State) : Out := guarded (.engSort g) s (engineOp g 5 1 (sortEffect 1 g))
/-- TOPK (R183). -/
def execEngTopk (g : Nat) (s : State) : Out := guarded (.engTopk g) s (engineOp g 5 2 (sortEffect 2 g))
/-- SETSLOT (R184). -/
def execEngSetslot (g : Nat) (s : State) : Out := guarded (.engSetslot g) s (engineOp g 6 1 setslotEffect)
/-- GEN (R185). -/
def execEngGen (g : Nat) (s : State) : Out := guarded (.engGen g) s (engineOp g 6 2 (genEffect g))
/-- ENCODE (R187). -/
def execEngEncode (g : Nat) (s : State) : Out := guarded (.engEncode g) s (engineOp g 7 1 (encodeEffect g))
/-- DECODE (R187, R322). -/
def execEngDecode (g : Nat) (s : State) : Out := guarded (.engDecode g) s (engineOp g 7 2 (decodeEffect g))
/-- SEND (R189, R273). -/
def execEngSend (g : Nat) (s : State) : Out := guarded (.engSend g) s (engineOp g 8 1 (sendEffect g))
/-- RECV_SUM (R190). -/
def execEngRecvSum (g : Nat) (s : State) : Out := guarded (.engRecvSum g) s (engineOp g 8 2 (recvEffect 2 g))
/-- RECV_MAX (R190). -/
def execEngRecvMax (g : Nat) (s : State) : Out := guarded (.engRecvMax g) s (engineOp g 8 3 (recvEffect 3 g))
/-- RECV_MIN (R190). -/
def execEngRecvMin (g : Nat) (s : State) : Out := guarded (.engRecvMin g) s (engineOp g 8 4 (recvEffect 4 g))
/-- RECV_COPY (R190). -/
def execEngRecvCopy (g : Nat) (s : State) : Out := guarded (.engRecvCopy g) s (engineOp g 8 5 (recvEffect 5 g))
/-- MAP_SEND (R191). -/
def execEngMapSend (g : Nat) (s : State) : Out := guarded (.engMapSend g) s (engineOp g 9 1 (mapEffect 1 g))
/-- MAP_RECV (R191). -/
def execEngMapRecv (g : Nat) (s : State) : Out := guarded (.engMapRecv g) s (engineOp g 9 2 (mapEffect 2 g))

end Sys2Proof.Machine
end

