-- ==== Sys2Proof/Machine/HostCmd.lean ====
section
/-!
DEFINITION. How an Isaex command is accepted and answered: orders 6 to 8 of R391, sessions and counts (R394, R396), the
checks of R393 and R401, the states of R400, and BUSY (R399).
-/
namespace Sys2Proof.Machine

/-! ### Status codes (R402) -/

def stOk : Nat := 0
def stBusy : Nat := 1
def stBadOpcode : Nat := 2
def stBadLength : Nat := 3
def stAuthFail : Nat := 4
def stNotInState : Nat := 5
def stWorn : Nat := 6
def stLimit : Nat := 7
def stPlanMismatch : Nat := 8
def stNeedsRepair : Nat := 9
def stQuarantined : Nat := 10
def stStale : Nat := 11

/-! ### States in which a command is served (R400) -/

/-- All: the states in which R30 serves Isaex. -/
def inAll : List DevState := [.isolated, .ready, .running, .quiesced, .needsRepair, .alarm]
def inI : List DevState := [.isolated]
def inR : List DevState := [.ready]
def inIR : List DevState := [.isolated, .ready]
def inUQ : List DevState := [.running, .quiesced]
def inRUQ : List DevState := [.ready, .running, .quiesced]
def inIRQN : List DevState := [.isolated, .ready, .quiesced, .needsRepair]
def inIRUQ : List DevState := [.isolated, .ready, .running, .quiesced]
def inIRUQN : List DevState := [.isolated, .ready, .running, .quiesced, .needsRepair]

/-! ### Parameters -/

/-- A field of the parameters, most significant byte first. -/
def be (p : List Byte) (i n : Nat) : Nat := beNat ((p.drop i).take n)

/-- Reserved bytes of the parameters are 0. -/
def resv0 (p : List Byte) (i n : Nat) : Bool := ((p.drop i).take n).all (· == 0)

/-- What R400, R401, R438 and R454 say of an opcode. -/
structure HostCmd where
  opcode : Nat
  states : List DevState
  /-- LENGTH is one that the opcode allows. -/
  len : Nat → Bool
  /-- Reserved bytes are 0 and the fields in range, where the row names no other status. -/
  ok : List Byte → Bool
  urgent : Bool

/-- A command with a session, of a fixed LENGTH. -/
def plainCmd (opcode : Nat) (states : List DevState) (length : Nat) (ok : List Byte → Bool) : HostCmd :=
  { opcode := opcode, states := states, len := fun n => n == length, ok := ok, urgent := false }

/-! ### Orders 6 to 8 of R391 -/

/-- A frame has reached a port (R410). -/
def countRx (s : State) (port : Nat) : State :=
  s.modEther port fun e => { e with framesRx := satInc 0xFFFFFFFF e.framesRx }

def dropCtx (s : State) : State := discardReport { s with isx := { s.isx with dropCtx := satInc 0xFFFF s.isx.dropCtx } } 0
def dropSeq (s : State) : State := discardReport { s with isx := { s.isx with dropSeq := satInc 0xFFFF s.isx.dropSeq } } 1
def dropTag (s : State) : State := discardReport { s with isx := { s.isx with dropTag := satInc 0xFFFF s.isx.dropTag } } 2
def dropRate (s : State) : State := discardReport { s with isx := { s.isx with dropRate := satInc 0xFFFF s.isx.dropRate } } 3

/-- Counts a tag that does not verify (R381). -/
def countTagFail (s : State) (iod : Nat) : State :=
  s.modCipher iod fun c => { c with tagFail := satInc 0xFFFFFFFF c.tagFail }

/-- The packet that brings a host command. -/
def packetOf : Instr → Option Env
  | .quiesce e _ | .resume e _ | .fenceLinks e _ | .sessOpen e _ | .sessConfirm e _ | .sessClose e _ | .sessPing e _ |
  .eventMask e _ | .eventRead e _ | .regRead e _ | .regWrite e _ | .planWrite e _ | .planRead e _ | .planCommit e _ |
  .planRelease e _ | .stepStart e _ | .stepStop e _ | .stepStatus e _ | .evalRead e _ | .evalStatus e _ | .fnReset e _
  | .fulOpen e _ | .fulClose e _ | .fulStatus e _ | .fwWrite e _ | .fwRead e _ | .fwErase e _ | .fwStage e _ |
  .fwUnstage e _ | .fwStatus e _ | .fwManifest e _ | .idCert e _ | .idKem e _ | .rootProvision e _ | .attestQuote e _
  | .sprReport e _ | .buddySet e _ | .refillSource e _ | .refillTarget e _ | .repairDone e _ | .lnkRetrain e _ |
  .lnkUnfence e _ | .lnkIdent e _ | .ingStatus e _ | .ingSeek e _ | .ingEndpoint e _ => some e
  | _ => none

/-- Class of an Isaex packet (R389). -/
def isaexClass (e : Env) : Nat := opcodeClass e.opcode

/-- Places of a class in the ingress queue of a die, and how many are taken. -/
def classPlaces (cls : Nat) : Nat := if cls = 0 then 8 else 24
def heldCount (s : State) (port cls : Nat) : Nat :=
  (s.isx.held.filter fun i => match packetOf i with | some e => e.port == port && isaexClass e == cls | none => false).length

/-- Where PFC is enabled for a class of a port, a frame of it pauses or releases the class (R390). -/
def sendPfc (s : State) (port cls : Nat) (pause : Bool) : State :=
  if (s.ether port).pfc.getLsbD (16 + cls) then sendFrame s port (.pfc port cls pause) else s

/-- A class queue of `places` has grown to n: at three quarters its sender is paused. -/
def pauseAt (s : State) (port cls places n : Nat) : State :=
  let k := 4 * port + cls
  if n * 4 = places * 3 ∧ s.isx.pausing.contains k = false then
    sendPfc { s with isx := { s.isx with pausing := s.isx.pausing ++ [k] } } port cls true
  else s

/-- A paused class is released once its queue is at most half full. -/
def releaseAt (s : State) (port cls places n : Nat) : State :=
  let k := 4 * port + cls
  if s.isx.pausing.contains k && decide (n * 2 ≤ places) then
    sendPfc { s with isx := { s.isx with pausing := s.isx.pausing.filter fun x => x != k } } port cls false
  else s

/-- A packet that finds its class queue full is discarded (R390). -/
def dropQueue (s : State) (port : Nat) : State :=
  discardReport (s.modEther port fun x => { x with dropQueue := satInc 0xFFFF x.dropQueue }) (13 + 16 * port)

/-- A packet waits in the ingress queue; one that finds its class full is discarded and counted. C1 pauses its sender at
three quarters (R37, R389, R390). -/
def holdPacket (s : State) (i : Instr) (e : Env) : State :=
  let n := heldCount s e.port (isaexClass e)
  if n < classPlaces (isaexClass e) then
    let s := { s with isx := { s.isx with held := s.isx.held ++ [i] } }
    if isaexClass e = 0 then s else pauseAt s e.port 1 24 (n + 1)
  else dropQueue s e.port

/-- The count lies in the window and has not been accepted (R394). -/
def inWindow (z : Sess) (count : Nat) : Bool :=
  let h := z.hi.getD 0
  decide (count ≤ h + 2 ^ 21) && decide (h ≤ count + 4095) &&
  (z.hi.isNone || decide (h < count) || !(z.seen.testBit (h - count)))

/-- Moves the window to a count that has been accepted. -/
def Sess.accept (z : Sess) (count : Nat) : Sess :=
  match z.hi with
  | none => { z with hi := some count, seen := 1 }
  | some h =>
    if h < count then { z with hi := some count, seen := (z.seen <<< (count - h) ||| 1) % 2 ^ 4096 }
    else { z with seen := z.seen ||| 1 <<< (h - count) }

/-- The tag of a command verifies; the model keeps the parameters in clear in the place of their ciphertext. -/
def tagOk (s : State) (e : Env) (p : List Byte) (epoch : Nat) : Bool :=
  let (_, tag) := gcmSeal (isaexKey s e.context 0 epoch) (nonceOf 1 0 0 epoch e.seq.toNat) (envHeader e) p
  BitVec.ofNat 128 (beNat tag) == e.tag

/-- The request that opens a command of a session, of n bytes of parameters (R374, R381). -/
def openKey (s : State) (e : Env) (n : Nat) : State × Bool :=
  let count := nearestCount ((s.session e.context).hi.getD 0) e.seq.toNat
  requestKey s e.port (isaexName e.context false (epochOf count)) 16 n

/-- Opcodes that the sessionless contexts accept (R396). -/
def sessionlessOpcode (opcode : Nat) : Bool := opcode == 0x10 || opcode == 0x90 || opcode == 0x91 || opcode == 0x92

/-- Counts a sessionless packet that is answered in the current second of its port: at most 64 (R396). -/
def rateOk (s : State) (port : Nat) : Option State :=
  let (n, start) := tget (0, 0) s.isx.rate port
  if n = 0 ∨ s.now - start ≥ 100000000 then
    some { s with isx := { s.isx with rate := tput s.isx.rate port (1, s.now) } }
  else if n < 64 then some { s with isx := { s.isx with rate := tput s.isx.rate port (n + 1, start) } }
  else none

/-! ### After the tag -/

/-- Commands of a session that wait for their replies (R399). -/
def outstanding (s : State) (ctx : Nat) : Nat :=
  let l := s.long
  let envs : List Env := l.commit.toList ++ (l.fnReset.filterMap (·.2)) ++ (l.erase.toList.map (·.2)) ++ (l.provision.toList.map (·.1)) ++
    (l.quote.toList.map (·.1)) ++ (l.refill.toList.map (·.2.1)) ++ l.store.map (·.env)
  (envs.filter fun e => e.context == ctx).length

/-- The status for a state that the opcode does not list (R32). -/
def stateStatus (s : State) : Nat := if s.glb.state = .needsRepair then stNeedsRepair else stNotInState

/-- Opcodes that the recovery image serves: sessions, registers, firmware, identity and attestation, of which root provisioning is one
(R35, R459). -/
def recoveryServes (opcode : Nat) : Bool :=
  decide (0x10 ≤ opcode ∧ opcode ≤ 0x14 ∨ opcode = 0x20 ∨ opcode = 0x21 ∨ 0x80 ≤ opcode ∧ opcode ≤ 0x84 ∨ 0x90 ≤ opcode ∧ opcode ≤ 0x93)

/-- No firmware runs to serve commands: MGMT is in reset (R37), or no management core is left (R414). DESIGN CHOICE (log 80): I/O-die
hardware answers as in a reset of MGMT there. -/
def mgmtDown (s : State) : Bool := s.inReset 0 || (s.glb.state == .needsRepair && resClass s.spr.repairCause == 7)

/-- The management domain is clocked: by the PLL of IOD0, or of IOD1 after the takeover (R468, R485). -/
def mgmtClocked (s : State) : Bool := !s.pwr.unlocked.contains (.ioDie, b2n s.spr.mgmtActive)

/-- Checks a command whose tag has passed and runs it. -/
def serve (s : State) (e : Env) (p : List Byte) (c : HostCmd) (f : State → State) : State :=
  if mgmtDown s = true ∧ c.urgent = false then reply s e stBusy []
  else if e.opcode ≠ c.opcode then reply s e stBadOpcode []
  else if e.flags ≠ 0 ∨ e.resv ≠ 0 ∨ e.status ≠ 0 then reply s e stBadLength []
  else if !c.len e.length || !c.ok p then reply s e stBadLength []
  else if isSessionless e.context = false ∧ ((s.session e.context).state = .opening ∧ c.opcode ≠ 0x11 ∨ c.opcode = 0x10) then
    reply s e stNotInState []
  else if outstanding s e.context ≥ 16 ∧ c.urgent = false ∧ isSessionless e.context = false then reply s e stBusy []
  else if s.fw.recovery = true ∧ recoveryServes c.opcode = false then reply s e stNotInState []
  else if !c.states.contains s.glb.state then reply s e (stateStatus s) []
  else f s

/-- An Isaex packet that has passed orders 1 to 5 of R391. One whose open an alarm meets is discarded (R385). -/
def receive (i : Instr) (e : Env) (p : List Byte) (c : HostCmd) (f : State → State) (s : State) : State :=
  match s.glb.state with
  | .cold => s
  | .booting => dropCtx s
  | _ =>
    if s.inReset 6 || (!mgmtClocked s && !c.urgent) then holdPacket s i e
    else if e.version ≠ 1 ∨ e.context / 0x2000 ≠ e.port ∨ e.udpLen ≠ 32 + e.length ∨ p.length ≠ e.length then dropCtx s
    else if isSessionless e.context then
      if !sessionlessOpcode e.opcode then dropCtx s
      else if e.tag ≠ 0 then dropTag s
      else
        match rateOk s e.port with
        | none => dropRate s
        | some s => serve s e p c f
    else
      let z := s.session e.context
      if z.state = .free ∨ z.hostIp ≠ e.srcIp ∨ z.hostPort ≠ e.srcPort then dropCtx s
      else
        let count := nearestCount (z.hi.getD 0) e.seq.toNat
        if !inWindow z count then dropSeq s
        else if !z.epochs.contains (epochOf count) then
          if alarmMeets s count then refreshIsaex s e.context else holdPacket (refreshIsaex s e.context) i e
        else if !requestOk 16 p.length then reply (openKey s e p.length).1 e stBadLength []
        else if !(openKey s e p.length).2 then holdPacket (openKey s e p.length).1 i e
        else if !tagOk s e p (epochOf count) then countTagFail (dropTag (openKey s e p.length).1) e.port
        else
          let s := (openKey s e p.length).1
          let s := s.setSession e.context { (z.accept count) with lastTick := s.now }
          serve (refreshIsaex s e.context) e p c f

/-- A command that needs a function is BUSY while that is in reset (R399). -/
def needing (fns : List Nat) (e : Env) (f : State → State) (s : State) : State :=
  if fns.any s.inReset then reply s e stBusy [] else f s

/-- The row of a command whose packet brings it, on a port that passes frames. -/
def hostCommand (i : Instr) (e : Env) (s : State) (f : State → State) : Out :=
  guarded i s fun s => if passes s e.port ∧ s.glb.state ≠ .cold then f (countRx s e.port) else s

/-! ### Replies that wait for the persistent store (R443) -/

/-- The reply to a command leaves once the last of its persistent writes has completed: `words` gives their tickets, in order, with the
number of words of a REG_WRITE before each. -/
def replyAfter (s : State) (e : Env) (words : List (Nat × Nat)) (status : Nat) (params : List Byte) : State :=
  match words.getLast? with
  | none => reply s e status params
  | some w => { s with long := { s.long with
      store := s.long.store ++ [{ ticket := w.1, env := e, status := status, params := params, words := words }] } }

/-- The value of `GLB_STATE` (R29). -/
def devCode : DevState → Nat
  | .cold => 0
  | .booting => 1
  | .isolated => 2
  | .ready => 3
  | .running => 4
  | .quiesced => 5
  | .needsRepair => 6
  | .alarm => 7

end Sys2Proof.Machine
end

