-- ==== Sys2Proof/Machine/Ethernet.lean ====
section
/-!
DEFINITION. The Ethernet ports (R387, R388, R390, R391, R410, R493): ARP and neighbour solicitations, PFC, link changes, and the
checks that a stranger's frame meets.
-/
namespace Sys2Proof.Machine

/-- Frames are served: not in COLD; in BOOTING none is answered (R30). -/
def answers (s : State) (port : Nat) : Bool := passes s port && s.glb.state != .cold && s.glb.state != .booting

def dropMac (s : State) (p : Nat) : State :=
  discardReport (s.modEther p fun e => { e with dropMac := satInc 0xFFFF e.dropMac }) (8 + 16 * p)
def dropVlan (s : State) (p : Nat) : State :=
  discardReport (s.modEther p fun e => { e with dropVlan := satInc 0xFFFF e.dropVlan }) (9 + 16 * p)
def dropIp (s : State) (p : Nat) : State :=
  discardReport (s.modEther p fun e => { e with dropIp := satInc 0xFFFF e.dropIp }) (10 + 16 * p)
def dropProto (s : State) (p : Nat) : State :=
  discardReport (s.modEther p fun e => { e with dropProto := satInc 0xFFFF e.dropProto }) (11 + 16 * p)
def dropPort (s : State) (p : Nat) : State :=
  discardReport (s.modEther p fun e => { e with dropPort := satInc 0xFFFF e.dropPort }) (12 + 16 * p)

/-- An IPv6 address of the port: link-local, or global where it has one (R388). -/
def ownIp6 (s : State) (port : Nat) (a : BitVec 128) : Bool :=
  a == linkLocal (Config.mac port) || (a != 0 && a == (s.ether port).ipv6)

/-- An IPv4 address of the port. -/
def ownIp4 (s : State) (port : Nat) (a : W32) : Bool := a != 0 && a == (s.ether port).ipv4

/-- The 802.1Q tag of a frame of no class, where the port sends tagged frames; its priority is free (R387, R410, log 86). -/
def plainTag (s : State) (port : Nat) : Option (Nat × Nat) :=
  let v := (s.ether port).vlan
  if v.getLsbD 15 then some ((Config.arpPriority port).toNat, bits v.toNat 11 0) else none

/-- ARP_REQUEST (R387): answered for the port's own IPv4 address. -/
def execArpRequest (port : Nat) (senderMac : BitVec 48) (senderIp targetIp : W32) (s : State) : Out :=
  guarded (.arpRequest port senderMac senderIp targetIp) s fun s =>
    if !passes s port || s.glb.state == .cold then s
    else
      let s := countRx s port
      if !ownIp4 s port targetIp then dropIp s port
      else if answers s port then sendFrame s port (.arpReply port senderMac senderIp (plainTag s port)) else s

/-- NEIGHBOUR_SOLICITATION (R387): answered for the port's link-local and global addresses. -/
def execNeighbourSolicitation (port : Nat) (srcMac : BitVec 48) (srcIp targetIp : BitVec 128) (s : State) : Out :=
  guarded (.neighbourSolicitation port srcMac srcIp targetIp) s fun s =>
    if !passes s port || s.glb.state == .cold then s
    else
      let s := countRx s port
      if !ownIp6 s port targetIp then dropIp s port
      else if answers s port then sendFrame s port (.neighbourAdvertisement port srcMac srcIp targetIp (plainTag s port) 64) else s

/-- PCP of a class, and PFC enabled for it; bit 0 of EN is ignored (R410). -/
def pcpOf (e : Eth) (cls : Nat) : Nat := bits e.pfc.toNat (4 * cls + 2) (4 * cls)
def pfcOn (e : Eth) (cls : Nat) : Bool := cls != 0 && e.pfc.getLsbD (16 + cls)

/-- Ticks of a number of pause quanta, of 512 bit times each at 800 Gbit/s (log 86). -/
def quantaTicks (n : Nat) : Nat := (8 * n + 124) / 125

/-- PFC_FRAME (R390): pauses egress of the classes mapped to its priorities, by its quanta; 0 ends a pause. Where `ETH_PFC` enables no
class, it lies outside the subset of R387 and is discarded. -/
def execPfcFrame (port : Nat) (enable : BitVec 8) (quanta : List Nat) (s : State) : Out :=
  guarded (.pfcFrame port enable quanta) s fun s =>
    if !passes s port || s.glb.state == .cold then s
    else if !(List.range 4).any (pfcOn (s.ether port)) then dropMac (countRx s port) port
    else
      flushEgress ((countRx s port).modEther port fun e =>
        (List.range 4).foldl
          (fun e cls =>
            let q := pcpOf e cls
            if pfcOn e cls && enable.getLsbD q then
              let n := quanta.getD q 0
              { e with paused := if n = 0 then tdel e.paused cls else tput e.paused cls (s.now + quantaTicks n) }
            else e) e) port

/-- ETH_LINK_CHANGE (R410, R493): FEC locks on all lanes, or a port stops passing frames, and those that waited are lost. -/
def execEthLinkChange (ep : Nat) (up : Bool) (s : State) : Out :=
  guardedBy (decide (ep < 2)) s fun s =>
    if s.glb.state = .cold then s
    else s.modEther ep fun e => { e with linkUp := up, fecLock := up, paused := (if up then e.paused else []), waits := (if up then e.waits else []) }

/-! ### A stranger's frame (R387, R391) -/

/-- Order 1. -/
def macOk (f : Frame) : Bool :=
  f.fcsOk && decide (64 ≤ f.len ∧ f.len ≤ 9216) && !f.pause &&
  (match f.dst with
   | .own => true
   | .broadcast => f.net == .arp
   | .solicitedNode => f.transport == .neighbourSolicitation
   | .other => false)

/-- Order 2: untagged frames, or one tag of the port's VID. -/
def vlanOk (s : State) (f : Frame) : Bool :=
  let v := (s.ether f.port).vlan
  if v.getLsbD 15 then f.tags == [bits v.toNat 11 0] else f.tags == []

/-- Order 3: a neighbour solicitation goes to the solicited-node address; every ICMP message but it lies outside the subset. -/
def netOk (s : State) (f : Frame) : Bool :=
  f.transport != .icmp &&
  match f.net with
  | .ipv4 ihl fragment sumOk dst => ihl == 5 && !fragment && sumOk && ownIp4 s f.port dst
  | .ipv6 extension dst => !extension && (ownIp6 s f.port dst || f.transport == .neighbourSolicitation)
  | .arp => true
  | .otherEther => false

/-- Order 4: UDP with a good checksum, which IPv4 may leave out, ARP, or a neighbour solicitation. -/
def transportOk (f : Frame) : Bool :=
  match f.net, f.transport with
  | .arp, .arpRequest => true
  | .ipv4 _ _ _ _, .udp _ sumZero sumOk => sumZero || sumOk
  | .ipv6 _ _, .udp _ sumZero sumOk => !sumZero && sumOk
  | .ipv6 _ _, .neighbourSolicitation => true
  | _, _ => false

/-- LPORTs of the open ingest streams of a die. -/
def openPorts (s : State) (port : Nat) : List Nat :=
  match s.run.plan with
  | some p => (p.streams.filter fun e => e.context / 0x2000 % 2 == port).map (·.lport)
  | none => []

/-- Order 5: the port of a datagram is served. -/
def portServed (s : State) (f : Frame) : Bool :=
  match f.transport with
  | .udp dport _ _ => dport == s.isx.port || dport == pstValue s ixFulPort || (openPorts s f.port).contains dport
  | _ => true

/-- Orders 1 to 5: the state that a discard leaves, or none where the frame passes. -/
def strangerDrop (s : State) (f : Frame) : Option State :=
  if !macOk f then some (dropMac s f.port)
  else if !vlanOk s f then some (dropVlan s f.port)
  else if !netOk s f then some (dropIp s f.port)
  else if !transportOk f then some (dropProto s f.port)
  else if !portServed s f then some (dropPort s f.port)
  else none

end Sys2Proof.Machine
end

