-- ==== Sys2Proof/Machine/Lattice.lean ====
section
/-!
DEFINITION. The lattice schemes that spec/ names by their standards: ML-KEM-768 of FIPS 203 (R363, R365) and ML-DSA-44 of FIPS 204
(R363, R452, R463, R464). Transforms are written as evaluation at their roots. A sampler that may run on reads a fixed length of its
stream, long enough for every case that can be met (log 14).
-/
namespace Sys2Proof.Machine

/-! ### Polynomials modulo q -/

/-- Powers and bit-reversed numbers. -/
def powMod (q b : Nat) : Nat → Nat
  | 0 => 1
  | n + 1 => powMod q b n * b % q
def revBits (w n : Nat) : Nat := (List.range w).foldl (fun a i => 2 * a + b2n (n.testBit i)) 0

/-- Sum, difference and negative, coefficient by coefficient. -/
def addPoly (q : Nat) (f g : List Nat) : List Nat := List.zipWith (fun a b => (a + b) % q) f g
def subPoly (q : Nat) (f g : List Nat) : List Nat := List.zipWith (fun a b => (a + q - b) % q) f g

/-- The value at a point, coefficients lowest first. -/
def polyAt (q : Nat) (f : List Nat) (x : Nat) : Nat := f.foldr (fun c acc => (c + x * acc) % q) 0

/-- Coefficients from the values at n roots: n/x^j sums over the roots' inverses; `ps` are the inverses' powers so far. -/
def fromValues (q scale : Nat) (invs vals : List Nat) : Nat → List Nat → List Nat
  | 0, _ => []
  | n + 1, ps =>
    scale * (List.zipWith (· * ·) vals ps).sum % q :: fromValues q scale invs vals n (List.zipWith (fun p x => p * x % q) ps invs)

/-- Fields of d bits, lowest first, and back. -/
def packFields (d : Nat) (f : List Nat) : List Byte := leBytes (d * f.length / 8) (f.foldr (fun v acc => v % 2 ^ d + 2 ^ d * acc) 0)
def fieldsOf (d n : Nat) (bs : List Byte) : List Nat :=
  let v := leNat bs
  (List.range n).map fun i => v / 2 ^ (d * i) % 2 ^ d

/-- Three bytes of a stream as a number, from every third byte on. -/
def triples (bs : List Byte) : List Nat := fieldsOf 24 (bs.length / 3) bs

/-! ### ML-KEM-768 -/

def kemQ : Nat := 3329

/-- The 128 roots, 17^(2 rev(i) + 1), and their inverses; 17 has order 256. -/
def kemRoots : List Nat := (List.range 128).map fun i => powMod kemQ 17 (2 * revBits 7 i + 1)
def kemInverses : List Nat := (List.range 128).map fun i => powMod kemQ 17 (255 - 2 * revBits 7 i)

/-- Coefficients of one parity. -/
def everySecond (k : Nat) (f : List Nat) : List Nat := (List.range 128).map fun i => f.getD (2 * i + k) 0
def interleave (a b : List Nat) : List Nat := (List.zip a b).flatMap fun x => [x.1, x.2]

/-- The transform: the remainders modulo x^2 - root. -/
def kemNtt (f : List Nat) : List Nat :=
  interleave (kemRoots.map (polyAt kemQ (everySecond 0 f))) (kemRoots.map (polyAt kemQ (everySecond 1 f)))
def kemBack (f : List Nat) : List Nat :=
  let go (k : Nat) := fromValues kemQ 3303 kemInverses (everySecond k f) 128 (List.replicate 128 1)
  interleave (go 0) (go 1)

/-- Product of transformed polynomials. -/
def kemTimes (f g : List Nat) : List Nat :=
  (List.range 128).flatMap fun i =>
    let a := (f.getD (2 * i) 0, f.getD (2 * i + 1) 0)
    let b := (g.getD (2 * i) 0, g.getD (2 * i + 1) 0)
    [(a.1 * b.1 + a.2 * b.2 % kemQ * kemRoots.getD i 0) % kemQ, (a.1 * b.2 + a.2 * b.1) % kemQ]
def kemDot (a b : List (List Nat)) : List Nat :=
  (List.zipWith kemTimes a b).foldl (addPoly kemQ) (List.replicate 256 0)

/-- A uniform polynomial, in transformed form, from the stream of a seed. -/
def kemUniform (seed : List Byte) : List Nat :=
  (((triples (shake128 2016 seed)).flatMap fun t => [t % 4096, t / 4096]).filter fun v => decide (v < kemQ)).take 256

/-- Entry (i, j) of the matrix: its seed ends in j and i. -/
def kemEntry (rho : List Byte) (i j : Nat) : List Nat := kemUniform (rho ++ [BitVec.ofNat 8 j, BitVec.ofNat 8 i])

/-- A small polynomial: differences of two sums of two bits. -/
def kemSmall (seed : List Byte) (n : Nat) : List Nat :=
  (fieldsOf 4 256 (shake256 128 (seed ++ [BitVec.ofNat 8 n]))).map fun v =>
    (b2n (v.testBit 0) + b2n (v.testBit 1) + kemQ - b2n (v.testBit 2) - b2n (v.testBit 3)) % kemQ

/-- Rounding to d bits, and back. -/
def kemShrink (d : Nat) (f : List Nat) : List Nat := f.map fun v => (2 ^ (d + 1) * v + kemQ) / (2 * kemQ) % 2 ^ d
def kemGrow (d : Nat) (f : List Nat) : List Nat := f.map fun v => (kemQ * v + 2 ^ (d - 1)) / 2 ^ d

/-- Vectors of three polynomials of d bits in a byte string. -/
def kemVector (d : Nat) (bs : List Byte) : List (List Nat) := (List.range 3).map fun i => fieldsOf d 256 ((bs.drop (32 * d * i)).take (32 * d))

/-- The seeds rho and sigma of a key pair. -/
def kemSeeds (d : List Byte) : List Byte × List Byte := let g := sha3Long (d ++ [3]); (g.take 32, g.drop 32)

/-- The secret vector, transformed, and the public key. -/
def kemSecret (d : List Byte) : List (List Nat) := (List.range 3).map fun i => kemNtt (kemSmall (kemSeeds d).2 i)
@[irreducible] def kemPublic (d : List Byte) : List Byte :=
  let (rho, sigma) := kemSeeds d
  let sec := kemSecret d
  ((List.range 3).flatMap fun i =>
    packFields 12 (addPoly kemQ (kemDot ((List.range 3).map (kemEntry rho i)) sec) (kemNtt (kemSmall sigma (3 + i))))) ++ rho

/-- Encryption of a 32-byte message with a 32-byte coin. -/
def kemEncrypt (ek m r : List Byte) : List Byte :=
  let t := (kemVector 12 ek).map fun f => f.map (· % kemQ)
  let rho := ek.drop 1152
  let y := (List.range 3).map fun i => kemNtt (kemSmall r i)
  let u := (List.range 3).map fun i =>
    addPoly kemQ (kemBack (kemDot ((List.range 3).map fun j => kemEntry rho j i) y)) (kemSmall r (3 + i))
  let v := addPoly kemQ (addPoly kemQ (kemBack (kemDot t y)) (kemSmall r 6)) (kemGrow 1 (fieldsOf 1 256 m))
  u.flatMap (fun f => packFields 10 (kemShrink 10 f)) ++ packFields 4 (kemShrink 4 v)

/-- Decryption under the secret vector. -/
def kemDecrypt (sec : List (List Nat)) (ct : List Byte) : List Byte :=
  let u := (kemVector 10 ct).map (kemGrow 10)
  let v := kemGrow 4 (fieldsOf 4 256 ((ct.drop 960).take 128))
  packFields 1 (kemShrink 1 (subPoly kemQ v (kemBack (kemDot sec (u.map kemNtt)))))

/-- Decapsulation under the key pair of the seeds d and z: a ciphertext that does not encrypt again to itself gives the rejection
secret. -/
@[irreducible] def kemDecaps (d z ct : List Byte) : List Byte :=
  let ek := kemPublic d
  let m := kemDecrypt (kemSecret d) ct
  let g := sha3Long (m ++ sha3 ek)
  if kemEncrypt ek m (g.drop 32) = ct then g.take 32 else shake256 32 (z ++ ct)

/-! ### ML-DSA-44 -/

def dsaQ : Nat := 8380417
/-- Bounds of the masks and of the low parts. -/
def dsaG1 : Nat := 131072
def dsaG2 : Nat := 95232
def dsaBeta : Nat := 78
def dsaOmega : Nat := 80

/-- The 256 roots, 1753^(2 rev(i) + 1), and their inverses; 1753 has order 512. -/
def dsaRoots : List Nat := (List.range 256).map fun i => powMod dsaQ 1753 (2 * revBits 8 i + 1)
def dsaInverses : List Nat := (List.range 256).map fun i => powMod dsaQ 1753 (511 - 2 * revBits 8 i)

def dsaNtt (f : List Nat) : List Nat := dsaRoots.map (polyAt dsaQ f)
def dsaBack (f : List Nat) : List Nat := fromValues dsaQ 8347681 dsaInverses f 256 (List.replicate 256 1)
def dsaTimes (f g : List Nat) : List Nat := List.zipWith (fun a b => a * b % dsaQ) f g
def dsaDot (a b : List (List Nat)) : List Nat :=
  (List.zipWith dsaTimes a b).foldl (addPoly dsaQ) (List.replicate 256 0)

/-- The value nearest 0, and back. -/
def dsaCentre (v : Nat) : Int := if v > dsaQ / 2 then (v : Int) - dsaQ else v
def dsaMod (v : Int) : Nat := (v % dsaQ).toNat

/-- The largest absolute value in a vector of polynomials. -/
def dsaNorm (v : List (List Nat)) : Nat := v.foldl (fun a f => f.foldl (fun a c => Nat.max a (dsaCentre c).natAbs) a) 0

/-- Row r, column c of the matrix: its seed ends in c and r. -/
def dsaEntry (rho : List Byte) (r c : Nat) : List Nat :=
  (((triples (shake128 1344 (rho ++ [BitVec.ofNat 8 c, BitVec.ofNat 8 r]))).map (· % 2 ^ 23)).filter fun v => decide (v < dsaQ)).take 256
def dsaMatrix (rho : List Byte) : List (List (List Nat)) := (List.range 4).map fun r => (List.range 4).map (dsaEntry rho r)

/-- A polynomial with coefficients from -2 to 2. -/
def dsaSmall (seed : List Byte) (n : Nat) : List Nat :=
  (((fieldsOf 4 544 (shake256 272 (seed ++ leBytes 2 n))).filter fun v => decide (v < 15)).take 256).map fun v => (dsaQ + 2 - v % 5) % dsaQ

/-- A mask polynomial, from -(2^17 - 1) to 2^17. -/
def dsaMask (seed : List Byte) (n : Nat) : List Nat :=
  (fieldsOf 18 256 (shake256 576 (seed ++ leBytes 2 n))).map fun v => (dsaQ + dsaG1 - v) % dsaQ

/-- The signs and places of the challenge: place i takes what stands at the drawn place, which takes the next sign. -/
def dsaBallStep : Nat → Nat → Nat → List Byte → List Nat → List Nat
  | 0, _, _, _, c => c
  | _, _, _, [], c => c
  | fuel + 1, i, signs, b :: r, c =>
    if i = 256 then c
    else if b.toNat > i then dsaBallStep fuel i signs r c
    else dsaBallStep fuel (i + 1) (signs / 2) r ((c.set i (c.getD b.toNat 0)).set b.toNat (if signs % 2 = 1 then dsaQ - 1 else 1))

/-- The challenge polynomial, with 39 coefficients that are not 0. -/
def dsaBall (seed : List Byte) : List Nat :=
  let h := shake256 544 seed
  dsaBallStep 536 217 (leNat (h.take 8)) (h.drop 8) (List.replicate 256 0)

/-- High and low part of a coefficient. -/
def dsaSplit (v : Nat) : Nat × Int :=
  let m := v % (2 * dsaG2)
  let low : Int := if m > dsaG2 then (m : Int) - 2 * dsaG2 else m
  if (v : Int) - low = dsaQ - 1 then (0, low - 1) else (((v : Int) - low).toNat / (2 * dsaG2), low)

/-- The high part, moved by a hint towards the low part's sign. -/
def dsaUse (hint : Nat) (v : Nat) : Nat :=
  let (hi, low) := dsaSplit v
  if hint = 0 then hi else if low > 0 then (hi + 1) % 44 else (hi + 43) % 44

/-- High 10 bits of a coefficient of t, and its low part. -/
def dsaHigh13 (v : Nat) : Nat × Int :=
  let m := v % 8192
  let low : Int := if m > 4096 then (m : Int) - 8192 else m
  (((v : Int) - low).toNat / 8192, low)

/-- The key pair of a seed. -/
structure DsaPair where
  rho : List Byte
  key : List Byte
  s1 : List (List Nat)
  s2 : List (List Nat)
  t0 : List (List Nat)
  pk : List Byte

def dsaPair (seed : List Byte) : DsaPair :=
  let h := shake256 128 (seed ++ [4, 4])
  let rho := h.take 32
  let small := (h.drop 32).take 64
  let s1 := (List.range 4).map (dsaSmall small)
  let s2 := (List.range 4).map fun r => dsaSmall small (4 + r)
  let t := List.zipWith (fun row e => addPoly dsaQ (dsaBack (dsaDot row (s1.map dsaNtt))) e) (dsaMatrix rho) s2
  { rho := rho, key := h.drop 96, s1 := s1, s2 := s2, t0 := t.map fun f => f.map fun v => dsaMod (dsaHigh13 v).2
    pk := rho ++ t.flatMap fun f => packFields 10 (f.map fun v => (dsaHigh13 v).1) }

@[irreducible] def dsaPublic (seed : List Byte) : List Byte := (dsaPair seed).pk

/-- The digest of a message with its context string under a public key. -/
def dsaDigest (pk ctx msg : List Byte) : List Byte :=
  shake256 64 (shake256 64 pk ++ [0, BitVec.ofNat 8 ctx.length] ++ ctx ++ msg)

/-- The hash of a digest and the high parts of w. -/
def dsaCommit (mu : List Byte) (w1 : List (List Nat)) : List Byte := shake256 32 (mu ++ w1.flatMap (packFields 6))

/-- The hints in their coded form: the places of each polynomial, then the ends of the four lists. -/
def dsaPackHints (h : List (List Nat)) : List Byte :=
  let places := h.map fun f => (List.range 256).filter fun i => f.getD i 0 != 0
  let all := places.flatten
  (all ++ List.replicate (dsaOmega - all.length) 0 ++ (List.range 4).map fun i => (places.take (i + 1)).flatten.length).map (BitVec.ofNat 8)

/-- One attempt at a signature, none where it is rejected. -/
def dsaAttempt (k : DsaPair) (a : List (List (List Nat))) (mu seed : List Byte) (kappa : Nat) : Option (List Byte) :=
  let y := (List.range 4).map fun r => dsaMask seed (kappa + r)
  let w := a.map fun row => dsaBack (dsaDot row (y.map dsaNtt))
  let w1 := w.map fun f => f.map fun v => (dsaSplit v).1
  let ct := dsaCommit mu w1
  let c := dsaNtt (dsaBall ct)
  let by' (v : List (List Nat)) := v.map fun f => dsaBack (dsaTimes c (dsaNtt f))
  let z := List.zipWith (addPoly dsaQ) y (by' k.s1)
  let r := List.zipWith (subPoly dsaQ) w (by' k.s2)
  let low := r.map fun f => f.map fun v => dsaMod (dsaSplit v).2
  let t := by' k.t0
  let moved := List.zipWith (addPoly dsaQ) r t
  let hints := List.zipWith (List.zipWith fun x v => if (dsaSplit x).1 = (dsaSplit v).1 then 0 else 1) moved r
  if dsaNorm z ≥ dsaG1 - dsaBeta ∨ dsaNorm low ≥ dsaG2 - dsaBeta ∨ dsaNorm t ≥ dsaG2 ∨ (hints.flatten).sum > dsaOmega then none
  else some (ct ++ z.flatMap (fun f => packFields 18 (f.map fun v => (dsaQ + dsaG1 - v) % dsaQ)) ++ dsaPackHints hints)

/-- Attempts until one stands; FIPS 204 names 814 as enough. -/
def dsaTries (k : DsaPair) (a : List (List (List Nat))) (mu seed : List Byte) : Nat → Nat → List Byte
  | 0, _ => []
  | n + 1, kappa =>
    match dsaAttempt k a mu seed kappa with
    | some sig => sig
    | none => dsaTries k a mu seed n (kappa + 4)

/-- A signature under the key pair of a seed, with a context string and the 32 bytes of randomness of FIPS 204. -/
@[irreducible] def dsaSign (seed ctx msg rnd : List Byte) : List Byte :=
  let k := dsaPair seed
  let mu := dsaDigest k.pk ctx msg
  dsaTries k (dsaMatrix k.rho) mu (shake256 64 (k.key ++ rnd ++ mu)) 814 0

/-- The places of one polynomial rise strictly. -/
def rising : List Nat → Bool
  | a :: b :: r => decide (a < b) && rising (b :: r)
  | _ => true

/-- The hints of a signature, none where their coding is not the one that a signer makes. -/
def dsaHints (bs : List Byte) : Option (List (List Nat)) :=
  let v := bs.map BitVec.toNat
  let ends := (List.range 4).map fun i => v.getD (dsaOmega + i) 0
  let start (i : Nat) : Nat := if i = 0 then 0 else ends.getD (i - 1) 0
  let part (i : Nat) : List Nat := (v.take (ends.getD i 0)).drop (start i)
  if ((List.range 4).all fun i => decide (start i ≤ ends.getD i 0 ∧ ends.getD i 0 ≤ dsaOmega) && rising (part i)) &&
      ((v.take dsaOmega).drop (ends.getD 3 0)).all (· == 0) then
    some ((List.range 4).map fun i => (List.range 256).map fun p => b2n ((part i).contains p))
  else none

/-- A signature verifies under a public key. -/
@[irreducible] def dsaVerify (pk ctx msg sig : List Byte) : Bool :=
  match dsaHints (sig.drop 2336) with
  | none => false
  | some h =>
    let c := dsaNtt (dsaBall (sig.take 32))
    let z := (List.range 4).map fun i =>
      (fieldsOf 18 256 ((sig.drop (32 + 576 * i)).take 576)).map fun v => (dsaQ + dsaG1 - v) % dsaQ
    let t := (List.range 4).map fun i => (fieldsOf 10 256 ((pk.drop (32 + 320 * i)).take 320)).map (8192 * ·)
    let w := List.zipWith (fun row f => dsaBack (subPoly dsaQ (dsaDot row (z.map dsaNtt)) (dsaTimes c (dsaNtt f)))) (dsaMatrix (pk.take 32)) t
    let w1 := List.zipWith (List.zipWith dsaUse) h w
    decide (pk.length = 1312 ∧ sig.length = 2420 ∧ dsaNorm z < dsaG1 - dsaBeta) &&
      dsaCommit (dsaDigest pk ctx msg) w1 == sig.take 32

end Sys2Proof.Machine
end

