-- ==== Sys2Proof/Machine/FulOps.lean ====
section
/-!
DEFINITION. Rounds of the Fuelle exchange on this device: their numbers (R332), the delta pass (R333), the coded streams
(R334), the close of a round and its formation (R337 to R339).
-/
namespace Sys2Proof.Machine

/-- The Fuelle schedule of the committed plan. -/
def fulSched (s : State) : Option FulSched := s.run.plan.bind (·.fuelle)

/-- The round base (R332, R361). -/
def roundBase (s : State) : Nat := pstLatest s ixRoundBase

/-- The round of a multiple of H. -/
def roundOf (s : State) (p : Plan) (step : Nat) : Nat := (step / p.h + roundBase s) % 2 ^ 32

/-- The round that the EXCHANGE of the current step sends. -/
def sendRound (s : State) : Option Nat :=
  s.run.plan.bind fun p =>
    if p.fuelle.isSome ∧ p.h ≠ 0 ∧ s.run.step ≠ 0 ∧ s.run.step % p.h = 0 then some (roundOf s p s.run.step) else none

/-- The round that the current step forms, where it was sent under the current plan commit and base (R332, R339). -/
def formRound (s : State) : Option Nat :=
  s.run.plan.bind fun p => p.fuelle.bind fun f =>
    if p.h ≠ 0 ∧ s.run.step > f.g ∧ (s.run.step - f.g) % p.h = 0 then
      let r := roundOf s p (s.run.step - f.g)
      if s.ful.sent.contains r then some r else none
    else none

/-- a − b of two round numbers as a signed 32-bit number. -/
def roundDiff (a b : Nat) : Int := signedOf 32 ((a + 2 ^ 32 - b % 2 ^ 32) % 2 ^ 32)

/-- Partner slot and depth of a receive-slot key. -/
def slotPartner (key : Nat) : Nat := key / 16

/-- I/O die of a partner slot. -/
def partnerIod (f : FulSched) (p : Nat) : Nat := match f.partners[p]? with | some x => x.iod | none => 0

/-- Counts contributions discarded as stale. -/
def countStale (s : State) (iod : Nat) : State := s.modDie iod fun d => { d with stale := satInc 0xFFFF d.stale }

/-- The close of a round at the start of COMPUTE of its formation step (R337). A rerun keeps the set. -/
def closeRound (s : State) : State :=
  match formRound s, fulSched s with
  | some r, some f =>
    if s.ful.closed = some r then { s with ful := { s.ful with ready := false } }
    else
      let whole := s.ful.slots.filter fun e => e.2.complete
      let old := whole.filter fun e => decide (roundDiff r e.2.round > f.s)
      let fit := (whole.filter fun e => decide (roundDiff r e.2.round ≤ f.s)).map fun e => (e.1, (roundDiff r e.2.round).toNat)
      let s := forEach old (fun s e => countStale s (partnerIod f (slotPartner e.1))) s
      { s with ful := { s.ful with
          slots := s.ful.slots.filter fun e => !(old.any fun o => o.1 == e.1)
          closed := some r, eligible := fit, ready := false } }
  | _, _ => { s with ful := { s.ful with closed := none, eligible := [], ready := false } }

/-- The commit of a formation step frees the eligible set; that the outer rule ran stays known until the next COMPUTE. -/
def freeRound (s : State) : State :=
  { s with ful := { s.ful with
      slots := s.ful.slots.filter fun e => !(s.ful.eligible.any fun x => x.1 == e.1)
      closed := none, eligible := [] } }

/-- The tensor descriptor that an entry names. -/
def entryTensor (s : State) (te : FulTensor) : Option TensorDesc := (programOf s te.stack)[te.tensor]?

/-- Pieces of a partner slot, each with its offset in the slot's uncompressed stream. -/
def slotPieces (f : FulSched) (p : Nat) : List (Nat × FulPiece) :=
  ((f.pieces.filter fun x => x.partner == p).foldl
    (fun (acc : Nat × List (Nat × FulPiece)) x => (acc.1 + 260 * x.rows, acc.2 ++ [(acc.1, x)])) (0, [])).2

/-- The session of a partner slot. -/
def slotSession (s : State) (p : Nat) : Option Nat := (s.fctx.find? fun e => e.2.state != 0 && e.2.slot == p).map (·.1)

/-- The weight of a partner slot; where its session is no longer held, spec/ names none and it is free (log 26). -/
def slotWeight (s : State) (p : Nat) : W32 :=
  match slotSession s p with
  | some c => (s.fuelle c).weight
  | none => BitVec.ofNat 32 (leNat (freeBytes (s.fresh + p) 4))

/-- Element j of row i of a tensor entry in an eligible contribution, with its weight, where a piece covers it. -/
def contributionAt (s : State) (f : FulSched) (ti row j : Nat) (e : Nat × Nat) : Option (W32 × W32) :=
  let p := slotPartner e.1
  match (slotPieces f p).find? fun x => x.2.tentry == ti && decide (x.2.first ≤ row ∧ row < x.2.first + x.2.rows), f.partners[p]? with
  | some (off, x), some q =>
    let base := q.rxBase + e.1 % 16 * q.rxStride + off
    let k := row - x.first
    let factor := readW s (base + 4 * k)
    let code := readLe s (base + 4 * x.rows + 256 * k + j) 1
    let w := toF32 ((ofF32 (slotWeight s p)).mul (.fin false 1 (-((f.decay * e.2 : Nat) : Int))))
    some (w, decodeRow .e4m3 code factor)
  | _, _ => none

/-- form of R338: one element of the combined delta. -/
def formElement (s : State) (f : FulSched) (elig : List (Nat × Nat)) (ti row j : Nat) (l : W32) : W32 :=
  let r := elig.foldl
    (fun (acc : W32 × W32) e =>
      match contributionAt s f ti row j e with
      | some (w, v) => (add32 acc.1 (mul32 w v), add32 acc.2 w)
      | none => acc) (mul32 f.selfW l, f.selfW)
  div32 r.1 r.2

/-- Width and format of the outer inputs of a tensor. -/
def outerFmt (t : TensorDesc) : NumFmt := if t.dfmt = 1 then .bf16 else .fp32
def outerWidth (t : TensorDesc) : Nat := if t.dfmt = 1 then 2 else 4

/-- Eligible contributions in ascending partner slot and then ascending round. -/
def eligibleOrder (s : State) : List (Nat × Nat) :=
  s.ful.eligible.foldl
    (fun acc e =>
      let before (x : Nat × Nat) : Bool :=
        decide (slotPartner x.1 < slotPartner e.1) ||
        (decide (slotPartner x.1 = slotPartner e.1) &&
          decide ((tget { round := 0, complete := false } s.ful.slots x.1).round ≤ (tget { round := 0, complete := false } s.ful.slots e.1).round))
      acc.filter before ++ [e] ++ acc.filter fun x => !before x) []

/-- Formation of the closed round (R338): DELTA of every tensor with an entry. -/
def formDelta (s : State) : State :=
  match fulSched s with
  | none => s
  | some f =>
    let elig := eligibleOrder s
    let s' := forEach (List.range f.tensors.length) (fun s ti =>
      match f.tensors[ti]? with
      | none => s
      | some te =>
        match entryTensor s te with
        | none => s
        | some t =>
          let w := outerWidth t
          let s0 := s
          forEach (List.range t.rows) (fun s row =>
            let bytes := (List.range 256).flatMap fun j =>
              let l := widen (outerFmt t) (readLe s0 (t.localAddr + w * (256 * row + j)) w)
              leBytes w (convertNum (outerFmt t) false (ofF32 (formElement s0 f elig ti row j l))).1
            writeBytes s (t.delta + w * 256 * row) bytes) s) s
    { s' with fresh := s'.fresh + f.partners.length }

/-- The delta pass of one tensor entry into outbound slot o (R333). -/
def deltaPass (s : State) (te : FulTensor) (o : Nat) : State :=
  match entryTensor s te with
  | none => s
  | some t =>
    let base := te.out + o * te.outStride
    let w := outerWidth t
    forEach (List.range t.rows) (fun s row =>
      let x := (List.range 256).map fun j =>
        let i := 256 * row + j
        sub32 (readW s (anchorAddr te.stack t i)) (readW s (masterAddr te.stack t (bankOf s te.stack) i))
      let (codes, e) := encodeRow .e4m3 x
      let s := writeW s (base + 4 * row) e
      let s := writeBytes s (base + 4 * t.rows + 256 * row) (codes.map fun c => BitVec.ofNat 8 c)
      writeBytes s (t.localAddr + w * 256 * row)
        (codes.flatMap fun c => leBytes w (convertNum (outerFmt t) false (ofF32 (decodeRow .e4m3 c e))).1)) s

/-- Blocks of 64 KiB of a byte string, coded, each with whether it is raw (R334). -/
def codeStream (s : State) (gen kind : Nat) (bs : List Byte) : List (List Byte × Bool) :=
  (List.range ((bs.length + 65535) / 65536)).map fun i => encodeBlock s gen kind ((bs.drop (65536 * i)).take 65536)

/-- The uncompressed contribution of a partner slot: of each piece its row factors, then its codes. -/
def slotStream (s : State) (f : FulSched) (p o : Nat) : List Byte :=
  (slotPieces f p).flatMap fun x =>
    match f.tensors[x.2.tentry]? with
    | none => []
    | some te =>
      let rows := match entryTensor s te with | some t => t.rows | none => 0
      let base := te.out + o * te.outStride
      readBytes s (base + 4 * x.2.first) (4 * x.2.rows) ++ readBytes s (base + 4 * rows + 256 * x.2.first) (256 * x.2.rows)

/-- Counts the blocks of a stream. -/
def countBlocks (s : State) (blocks : List (List Byte × Bool)) : State := forEach blocks (fun s b => countBlock s b.2) s

/-- Writes a coded stream, each block at a multiple of 64 bytes with zeros up to the next (R316), and counts its blocks. -/
def storeStream (s : State) (pa : Nat) (blocks : List (List Byte × Bool)) : State :=
  countBlocks (writeBytes s pa (blocks.flatMap fun b => b.1 ++ List.replicate (pad64 b.1.length) 0)) blocks

/-- The blocks of a stored stream back to back, without their padding (R348); `lens` are their lengths. -/
def loadStream (s : State) : Nat → List Nat → List Byte
  | _, [] => []
  | pa, n :: l => readBytes s pa n ++ loadStream s (pa + n + pad64 n) l

end Sys2Proof.Machine
end

