-- ==== Sys2Proof/Machine/FulSession.lean ====
section
/-!
DEFINITION. Fuelle sessions: salts and OFFER (R344, R345, R371), rates (R353, R379, R480), the estimator (R355), rounds that
are abandoned (R352), and the commands FUL_OPEN, FUL_CLOSE and FUL_STATUS (R342, R343, R400).
-/
namespace Sys2Proof.Machine

/-! ### Profiles (R353), in ticks and Mbit/s -/

def FulCtx.long (f : FulCtx) : Bool := f.profileUse == 1
def leastRto (f : FulCtx) : Nat := profileRto f.long
def rateStep (f : FulCtx) : Nat := if f.long then 5000 else 10000
def leastRate : Nat := 1000
def ackInterval (f : FulCtx) : Nat := if f.long then 500000 else 25000

/-- Profile that this end offers, for the interval of its offers. -/
def offerInterval (f : FulCtx) : Nat := if f.profile = 1 then 20000000 else 1000000

/-! ### What may be sent -/

/-- The Fuelle engine of a die sends nothing at all: EXCHANGE or CIPHER is in reset, or its die is held for heat (R359, R480). -/
def fulSilent (s : State) (ctx : Nat) : Bool :=
  s.inReset 4 || s.inReset 6 || s.pwr.holdIod.getLsbD (portOf ctx)

/-- DATA, PARITY, OFFER and JOIN are not sent in QUIESCED either (R359). -/
def fulQuiet (s : State) (ctx : Nat) : Bool := s.glb.state == .quiesced || fulSilent s ctx

/-! ### Rates -/

/-- Factor of a decrease in percent: CE marks, and a group that needed a re-send. -/
def decreasePercent (f : FulCtx) (ce needed : Bool) : Nat :=
  if needed then (if f.long then 70 else 50) else if ce then 85 else 100

/-- The rate after an ACK or a re-send: at most one decrease in each SRTT, of which the lower factor applies, and one increase for each
SRTT without one. -/
def FulCtx.paceBy (f : FulCtx) (now : Nat) (ce needed : Bool) : FulCtx :=
  let k := decreasePercent f ce needed
  let since := decide (now - f.lastDecrease ≥ f.srtt)
  if k < 100 ∧ since = true then
    { f with rate := Nat.max leastRate (f.rate * k / 100), rateBase := f.rate, factor := k, lastDecrease := now, lastIncrease := now }
  else if k < f.factor ∧ f.factor < 100 then { f with rate := Nat.max leastRate (f.rateBase * k / 100), factor := k }
  else if k = 100 ∧ since = true then
    let t := Nat.max 1 f.srtt
    let n := (now - f.lastIncrease) / t
    { f with rate := f.rate + n * rateStep f, lastIncrease := f.lastIncrease + n * t }
  else f

/-! ### The estimator (R355) -/

/-- SRTT, RTTVAR and RTO after a sample; the Bool says that the estimator has restarted. The first sample sets SRTT. -/
def FulCtx.sample (f : FulCtx) (m : Nat) : FulCtx × Bool :=
  let above := if m > f.srtt + 4 * f.rttvar then f.above + 1 else 0
  let below := if 2 * m < f.srtt then f.below + 1 else 0
  if above ≥ 3 ∨ below ≥ 3 then
    ({ f with srtt := m, rttvar := m / 2, rto := Nat.max (m + 4 * (m / 2)) (leastRto f), rtoScale := 1, sampled := true
              above := 0, below := 0 }, true)
  else
    let dev := if m ≥ f.srtt then m - f.srtt else f.srtt - m
    let var := (3 * f.rttvar + dev) / 4
    let srtt := (7 * f.srtt + m) / 8
    ({ f with srtt := srtt, rttvar := var, rto := Nat.max (srtt + 4 * var) (leastRto f), rtoScale := 1, sampled := true
              above := above, below := below }, false)

/-! ### OFFER (R345, R347, R371) -/

/-- The generations held, one per byte in four bytes. -/
def gensHeld (s : State) : List Nat := s.fw.gens.map (·.gen)
def gensBytes (s : State) : List Byte :=
  ((gensHeld s).map (BitVec.ofNat 8) ++ [0, 0, 0, 0]).take 4

/-- The device can sponsor: its schedule has a snapshot area. -/
def canSponsor (s : State) : Bool := match fulSched s with | some f => f.joinBase != 0 | none => false

/-- SCHED_ID of the committed schedule. -/
def schedIdOf (s : State) : W32 := match fulSched s with | some f => f.schedId | none => 0

/-- The plaintext of an OFFER. -/
def offerPlain (s : State) (ctx : Nat) : List Byte :=
  let f := s.fuelle ctx
  beBytes 16 Config.serial.toNat ++ beBytes 4 (schedIdOf s).toNat ++ gensBytes s ++
  [BitVec.ofNat 8 f.profile, BitVec.ofNat 8 (b2n f.joining + 2 * b2n (canSponsor s))] ++ beBytes 2 f.psz ++
  beBytes 4 (s.die (portOf ctx)).formed ++ beBytes 2 ctx ++ [0, 0]

/-- Sends OFFER under the offer key of the current salt; where the unit has not derived that key, the OFFER waits for it (R371,
R380). -/
def sendFulOffer (s : State) (ctx : Nat) : State :=
  let f := s.fuelle ctx
  let port := portOf ctx
  if fulQuiet s ctx ∨ s.keys.cur.isNone = true ∨ (s.ether port).nextHop = 0 then s
  else if f.offerTx = false then askKey (s.setFuelle ctx { f with offerDue := true }) port (.offerTx ctx f.saltOwn)
  else
    let p := { fulBlank s ctx 4 (offerPlain s ctx) with
      seq := BitVec.ofNat 32 f.offers, round := f.saltOwn.extractLsb' 32 32, group := f.saltOwn.setWidth 32 }
    let r := requestKey s port (offerName ctx true f.saltOwn) 32 p.plain.length
    if !r.2 then r.1.setFuelle ctx { f with offerDue := true }
    else
      let (ct, tag) := gcmSeal (fulKey s ctx 2 true 0) (nonceOf 2 (fulDir s ctx true) 0 0 f.offers) (fulHeader p) p.plain
      fulFrame (r.1.setFuelle ctx { f with offers := f.offers + 1, offerDue := false }) ctx p ct tag

/-- Draws this end's salt. -/
def drawSalt (s : State) (ctx : Nat) : State :=
  let s := s.modFuelle ctx fun f => { f with saltOwn := saltOf s.fresh, offers := 0, offerTx := false, offerDue := false }
  (dropUses s (portOf ctx) fun k => k.use == 2 && k.ctx == ctx && k.mine).ticket

/-! ### Rounds abandoned (R352) -/

/-- The round of this device's last sending step. -/
def currentRound (s : State) : Option Nat :=
  s.run.plan.bind fun p => if p.h = 0 then none else some (roundOf s p s.run.step)

/-- A queued round is abandoned; a snapshot's stream is not, for its ROUND is no round of this device. -/
def abandoned (s : State) (f : FulCtx) (x : TxRound) : Bool :=
  match fulSched s with
  | none => true
  | some k =>
    !x.sponsor && ((match currentRound s with | some c => decide (roundDiff c x.round > k.s) | none => false) ||
      decide (roundDiff f.formed x.round > k.s))

/-- Drops the abandoned rounds of a session. -/
def abandonRounds (s : State) (ctx : Nat) : State :=
  let f := s.fuelle ctx
  let n := (f.tx.filter (abandoned s f)).length
  if n = 0 then s
  else
    (s.setFuelle ctx { f with tx := f.tx.filter fun x => !abandoned s f x }).modDie (portOf ctx) fun d =>
      { d with rounds := satAdd 0xFFFF d.rounds n }

/-! ### Commands (R400) -/

/-- Contexts in use: sessionless, Isaex sessions, ingest streams and Fuelle sessions. -/
def contextUsed (s : State) (ctx : Nat) : Bool :=
  isSessionless ctx || (s.session ctx).state != .free || (s.fuelle ctx).state != 0 ||
  (match s.run.plan with | some p => p.streams.any fun x => x.context == ctx | none => false)

/-- A weight or schedule factor that is finite and above 0. -/
def finitePos (v : W32) : Bool :=
  match ofF32 v with
  | .fin sign m _ => !sign && m != 0
  | _ => false

/-- Ranges of the parameters of FUL_OPEN that name no other status (R342). -/
def fulOpenOk (p : List Byte) : Bool :=
  let k := be p 25 1
  let psz := be p 30 2
  decide (be p 0 2 < 16384 ∧ be p 2 2 < 16384 ∧ be p 24 1 ≤ 1 ∧ 1 ≤ k ∧ k ≤ 192 ∧ be p 26 1 ≤ 64 ∧ be p 27 1 ≤ 63 ∧
    be p 28 1 ≤ 3 ∧ be p 29 1 = 0 ∧ 1024 ≤ psz ∧ psz ≤ 8192 ∧ psz % 64 = 0) && resv0 p 36 4

/-- The context that FUL_OPEN sets up. -/
def openedContext (s : State) (p : List Byte) : FulCtx :=
  let join := bit (be p 28 1) 1
  let long := be p 24 1 == 1
  { FulCtx.reset with
    state := if join then 3 else 1, peerCtx := be p 2 2, peerIp := BitVec.ofNat 128 (be p 4 16), peerPort := be p 20 2
    slot := be p 22 2, profile := be p 24 1, profileUse := be p 24 1, k := be p 25 1, m := be p 26 1, dscp := be p 27 1
    ecn := bit (be p 28 1) 0, join := join, psz := be p 30 2, pszUse := be p 30 2, weight := BitVec.ofNat 32 (be p 32 4)
    root := s.keys.cur, rate := startRate long }.freshEstimator

/-- Order 2 of R358: the join begins with its first session, under the limit that then holds (R361). -/
def beginJoin (s : State) : State :=
  if s.ful.joinSince.isSome then s else { s with ful := { s.ful with joinSince := some s.now, joinFor := s.ful.joinLimit } }

/-- Opens a session: the salt is drawn, the state reported and the first OFFER sent. -/
def openFuelle (s : State) (p : List Byte) : State :=
  let ctx := be p 0 2
  let s := drawSalt (s.setFuelle ctx (openedContext s p)) ctx
  let s := if bit (be p 28 1) 1 then beginJoin s else s
  sendFulOffer (scaleRates (raiseOpen s 11) (portOf ctx)) ctx

/-- Status of FUL_OPEN (R342, R343). -/
def fulOpenStatus (s : State) (p : List Byte) : Nat :=
  match s.run.plan, fulSched s with
  | some pl, some f =>
    if pl.h = 0 then stNotInState
    else if pstLatest s ixExchLocked ≠ 0 ∨ s.keys.cur.isNone = true then stAuthFail
    else if contextUsed s (be p 0 2) ∨ (s.fctx.filter fun e => e.2.state != 0).length ≥ 4096 then stLimit
    else if f.partners.length ≤ be p 22 2 ∨ partnerIod f (be p 22 2) ≠ portOf (be p 0 2) then stPlanMismatch
    else if finitePos (BitVec.ofNat 32 (be p 32 4)) = false then stLimit
    else stOk
  | _, _ => stNotInState

/-- FUL_OPEN; BUSY while EXCHANGE is in reset (R399). -/
def doFulOpen (e : Env) (p : List Byte) (s : State) : State :=
  receive (.fulOpen e p) e p (plainCmd 0x70 inRUQ 40 fulOpenOk) (needing [4] e fun s =>
    let st := fulOpenStatus s p
    reply (if st = stOk then openFuelle s p else s) e st []) s
def execFulOpen (e : Env) (p : List Byte) (s : State) : Out := hostCommand (.fulOpen e p) e s (doFulOpen e p)

/-- Bytes 2 to 7 are reserved, and the context number has 14 bits. -/
def fulCtxOk (p : List Byte) : Bool := decide (be p 0 2 < 16384) && resv0 p 2 6

/-- FUL_CLOSE: CLOSE is sent, and the session becomes FREE; BUSY while EXCHANGE is in reset (R399). -/
def doFulClose (e : Env) (p : List Byte) (s : State) : State :=
  receive (.fulClose e p) e p (plainCmd 0x71 inRUQ 8 fulCtxOk) (needing [4] e fun s =>
    reply (fulFree s (be p 0 2) true) e stOk []) s
def execFulClose (e : Env) (p : List Byte) (s : State) : Out := hostCommand (.fulClose e p) e s (doFulClose e p)

/-- FUL_STATUS. -/
def doFulStatus (e : Env) (p : List Byte) (s : State) : State :=
  receive (.fulStatus e p) e p (plainCmd 0x72 inRUQ 8 fulCtxOk) (fun s =>
    let f := s.fuelle (be p 0 2)
    reply s e stOk ([BitVec.ofNat 8 f.state, 0, 0, 0] ++ beBytes 4 f.srtt ++ beBytes 4 f.rate ++ beBytes 4 f.formed ++
      [BitVec.ofNat 8 f.gen])) s
def execFulStatus (e : Env) (p : List Byte) (s : State) : Out := hostCommand (.fulStatus e p) e s (doFulStatus e p)

end Sys2Proof.Machine
end

