-- ==== Sys2Proof/Machine/Isaex.lean ====
section
/-!
DEFINITION. Isaex sessions and events (R396 to R398, R400, R403): SESS_OPEN, SESS_CONFIRM, SESS_CLOSE, SESS_PING, EVENT_MASK,
EVENT_READ and the timeouts of a session.
-/
namespace Sys2Proof.Machine

/-- A command that all states serve. -/
def anyState (opcode length : Nat) (ok : List Byte → Bool) : HostCmd := plainCmd opcode inAll length ok

/-- The lowest free context of a port's half, the sessionless one left out (R397). -/
def freeContext (s : State) (port : Nat) : Option Nat :=
  ((List.range 8191).map fun k => 0x2000 * port + 1 + k).find? fun c => !contextUsed s c

/-- Sessions that are not FREE, and those that are OPENING. -/
def liveSessions (s : State) : Nat := (s.sess.filter fun e => e.2.state != .free).length
def openingSessions (s : State) : Nat := (s.sess.filter fun e => e.2.state == .opening).length
def openSessions (s : State) : Nat := (s.sess.filter fun e => e.2.state == .isOpen).length

/-- A session is set up; its reply waits for the keys of epoch 0 (R397). -/
def openSession (s : State) (e : Env) (p : List Byte) (ctx : Nat) : State :=
  let z : Sess := { Sess.reset with
    state := .opening, hostMac := e.srcMac, hostIp := e.srcIp, hostPort := e.srcPort, devIp := e.dstIp
    saltA := BitVec.ofNat 64 (be p 0 8), saltB := saltOf s.fresh, lastTick := s.now, opening := some e, root := s.keys.owner }
  refreshIsaex (s.setSession ctx z).ticket ctx

/-- SESS_OPEN. -/
def sessOpenCmd : HostCmd :=
  { opcode := 0x10, states := inAll, len := fun n => n == 8, ok := fun p => be p 0 8 != 0, urgent := false }
def doSessOpen (e : Env) (p : List Byte) (s : State) : State :=
  receive (.sessOpen e p) e p sessOpenCmd (fun s =>
    if s.keys.owner.isNone then reply s e stAuthFail []
    else if liveSessions s ≥ 256 ∨ openingSessions s ≥ 8 then reply s e stLimit []
    else
      match freeContext s e.port with
      | none => reply s e stLimit []
      | some ctx => openSession s e p ctx) s
def execSessOpen (e : Env) (p : List Byte) (s : State) : Out := hostCommand (.sessOpen e p) e s (doSessOpen e p)

/-- The reply to SESS_OPEN, once both keys of epoch 0 are held: in clear, with a tag under event count 0 (R394, R397). -/
def replyOpening (s : State) (ctx : Nat) : State :=
  let z := s.session ctx
  match z.opening with
  | none => s
  | some e =>
    let params := beBytes 2 ctx ++ [0, 0] ++ beBytes 8 z.saltB.toNat ++ beBytes 16 Config.serial.toNat
    let hdr := isaexHeader 1 e.context e.seq.toNat e.opcode params.length stOk
    let r := requestKey s (portOf ctx) (isaexName ctx true 0) (hdr.length + params.length) 0
    if !z.epochs.contains 0 || !z.txEpochs.contains 0 then s
    else if !r.2 then r.1
    else
      let (_, tag) := gcmSeal (isaexKey s ctx 1 0) (nonceOf 1 1 1 0 0) (hdr ++ params) []
      replyFrame (r.1.setSession ctx { z with opening := none, evCount := 1, repliedAt := s.now }) e stOk params (hdr ++ params ++ tag)

/-- SESS_CONFIRM: the session becomes OPEN. -/
def doSessConfirm (e : Env) (p : List Byte) (s : State) : State :=
  receive (.sessConfirm e p) e p (anyState 0x11 0 fun _ => true) (fun s =>
    reply (s.setSession e.context { s.session e.context with state := .isOpen }) e stOk []) s
def execSessConfirm (e : Env) (p : List Byte) (s : State) : Out := hostCommand (.sessConfirm e p) e s (doSessConfirm e p)

/-- SESS_CLOSE: the session becomes FREE after the reply. -/
def doSessClose (e : Env) (p : List Byte) (s : State) : State :=
  receive (.sessClose e p) e p (anyState 0x12 0 fun _ => true) (fun s => freeSession (reply s e stOk []) e.context) s
def execSessClose (e : Env) (p : List Byte) (s : State) : Out := hostCommand (.sessClose e p) e s (doSessClose e p)

/-- SESS_PING. -/
def doSessPing (e : Env) (p : List Byte) (s : State) : State :=
  receive (.sessPing e p) e p (anyState 0x13 0 fun _ => true) (fun s => reply s e stOk (beBytes 8 s.now)) s
def execSessPing (e : Env) (p : List Byte) (s : State) : Out := hostCommand (.sessPing e p) e s (doSessPing e p)

/-- EVENT_MASK. -/
def doEventMask (e : Env) (p : List Byte) (s : State) : State :=
  receive (.eventMask e p) e p (anyState 0x15 8 fun p => resv0 p 4 4) (fun s =>
    reply (s.setSession e.context { s.session e.context with mask := BitVec.ofNat 32 (be p 0 4) }) e stOk []) s
def execEventMask (e : Env) (p : List Byte) (s : State) : Out := hostCommand (.eventMask e p) e s (doEventMask e p)

/-- EVENT_READ: STALE where the record is older than those held; an index that has not been raised is out of range (R393, log 51). -/
def doEventRead (e : Env) (p : List Byte) (s : State) : State :=
  receive (.eventRead e p) e p (anyState 0x16 8 fun p => resv0 p 4 4) (fun s =>
    match s.isx.ring.find? fun r => r.index == be p 0 4 with
    | some r => reply s e stOk (recordBytes r)
    | none => reply s e (if be p 0 4 < s.isx.nextEvent then stStale else stBadLength) []) s
def execEventRead (e : Env) (p : List Byte) (s : State) : Out := hostCommand (.eventRead e p) e s (doEventRead e p)

/-- SESSION_OPENING_TIMEOUT (R397): a session still OPENING 1 s after its reply becomes FREE. -/
def execSessionOpeningTimeout (ctx : Nat) (s : State) : Out :=
  guarded (.sessionOpeningTimeout ctx) s fun s =>
    let z := s.session ctx
    if z.state = .opening ∧ z.opening = none ∧ s.now - z.repliedAt ≥ 100000000 then freeSession s ctx else s

/-- SESSION_IDLE_TIMEOUT (R398): a session that is not FREE becomes so; no authenticated packet for `ISX_IDLE_LIMIT` milliseconds; 0 disables it (R411). -/
def execSessionIdleTimeout (ctx : Nat) (s : State) : Out :=
  guarded (.sessionIdleTimeout ctx) s fun s =>
    let z := s.session ctx
    if z.state ≠ .free ∧ s.isx.idleLimit ≠ 0 ∧ s.now - z.lastTick ≥ 100000 * s.isx.idleLimit then freeSession s ctx else s

end Sys2Proof.Machine
end

