-- ==== Sys2Proof/Machine/LinkIn.lean ====
section
/-!
DEFINITION. What arrives on a link: acknowledgement, credit and replay (R287 to R290), which flits are accepted (R302), board
accesses (R309), messages (R307), and training and settlement (R293 to R295, R299, R304).
-/
namespace Sys2Proof.Machine

/-! ### Acknowledgement, credit, replay -/

/-- Flits of the replay buffer up to the acknowledged sequence number leave it. -/
def ackFlits (ack : BitVec 16) : List Flit → List Flit
  | [] => []
  | f :: r => if (ack - f.seq).toNat < 0x8000 then ackFlits ack r else f :: r

/-- A NAK: everything unacknowledged is sent again; the fourth failure of the same flit retrains the port (R289). -/
def takeNak (s : State) (port : Nat) : State :=
  let x := s.port port
  if x.replay.isEmpty then s
  else if x.resent ≥ 3 then dropLink s port
  else resendAll (s.setPort port { x with resent := x.resent + 1 }) port

/-- What every flit carries back: ACK, CREDIT and NAK. -/
def takeAck (s : State) (port : Nat) (f : Flit) : State :=
  let x := s.port port
  let left := ackFlits f.ack x.replay
  let s := s.setPort port { x with
    replay := left, resent := if left.length = x.replay.length then x.resent else 0
    credit := Nat.min 4096 (x.credit + f.credit.toNat) }
  let s := if f.nak then takeNak s port else s
  flushPort s port

/-- Asks for flits to be sent again from the last good one. -/
def sendNak (s : State) (port : Nat) : State :=
  sendIdle (s.modPort port fun x => { x with nak := true, awaiting := true, replays := satInc 0xFFFFFFFF x.replays }) port

/-- The receive lane with the most corrected symbols, of equals the lower one; none where no codeword had a symbol error (R290). -/
def worstLane (symbols : List Nat) : Option Nat :=
  let top := symbols.foldl Nat.max 0
  if top = 0 then none else symbols.findIdx? (· == top)

/-- A replay is asked for: it counts against the receive lane that had the most corrected symbols, or against the port logic where
none had any (R288, R290). -/
def askReplay (s : State) (port : Nat) (f : Flit) : State :=
  countEvent (sendNak s port) (match worstLane f.symbols with | some k => .linkLane port k | none => .portLogic port)

/-- A TAINT seen on a flit taints the current step, unless the flit's attempt is earlier (R303). -/
def seeTaint (s : State) (f : Flit) : State :=
  if f.taint && decide (s.run.attempt ≤ f.attempt.toNat) then taint s else s

/-- The port carries flits of this type now: UP, or IDLE and CTRL in quarantine (R295), or IDLE in training (R293). -/
def carries (s : State) (port : Nat) (f : Flit) : Bool :=
  let st := (s.port port).state
  s.glb.state != .cold && !s.inReset 3 && linkClocked s port &&
  (st == 4 || (st == 6 && (f.typ == 0 || f.typ == 3)) || (f.typ == 0 && decide (2 ≤ st ∧ st ≤ 3)))

/-- A flit arrives: parity, acknowledgement, sequence, taint; then what its type does. IDLE flits are not numbered (log 23). -/
def flitIn (s : State) (port : Nat) (f : Flit) (body : State → State) : State :=
  if !carries s port f then s
  else if f.parity ≠ flitParity f then askReplay s port f
  else
    let s := takeAck s port f
    if !carries s port f then s
    else if f.typ = 0 then seeTaint s f
    else
      let x := s.port port
      if f.seq = x.rxSeq + 1 then body (seeTaint (s.setPort port { x with rxSeq := f.seq, awaiting := false }) f)
      else if (x.rxSeq - f.seq).toNat < 0x8000 || x.awaiting then s
      else askReplay s port f

/-! ### Which flits are accepted (R302) -/

/-- A place of the receive buffer is free again. -/
def freePlace (s : State) (port : Nat) : State := s.modPort port fun x => { x with freed := x.freed + 1 }

def dropMsgonly (s : State) (port : Nat) : State := s.modPort port fun x => { x with dropMsgonly := satInc 0xFFFF x.dropMsgonly }
def dropGenpart (s : State) (port : Nat) : State := s.modPort port fun x => { x with dropGenpart := satInc 0xFFFF x.dropGenpart }
def dropForeign (s : State) (port : Nat) : State := s.modPort port fun x => { x with dropForeign := satInc 0xFFFF x.dropForeign }

/-- The states in which DATA and RDREQ are taken. -/
def takesData (s : State) : Bool := s.glb.state == .ready || s.glb.state == .running || s.glb.state == .quiesced

/-- GEN and PART are the receiver's. -/
def genPartOk (s : State) (f : Flit) : Bool :=
  f.gen == BitVec.ofNat 32 ((s.run.plan.map (·.gen)).getD 0) && f.part == BitVec.ofNat 32 ((s.run.plan.map (·.part)).getD 0)

/-- Sends a board flit on towards its position (R309). -/
def forwardBoard (s : State) (port : Nat) (f : Flit) : State :=
  match boardPorts s f.bpos.toNat with
  | [] => countRouteDrop s port
  | p :: _ => sendFlit s p f

/-- A DATA flit whose bytes lie in a working copy: nothing but the update unit writes one (R238). -/
def writesWork (s : State) (f : Flit) : Bool :=
  (List.range (flitBytes f).length).any fun i => regionKind s (f.dst.toNat + i) == some 1

/-- A DATA flit of board-shared addressing that is for this device. -/
def boardData (s : State) (port : Nat) (f : Flit) : State :=
  if writesWork s f then countRouteDrop s port else deliverBoard s f

/-- An RDREQ for this device: remote address, length up to 4 KiB, return address word (R309). What lies outside the fast tier,
cluster memories and operand caches is not answered (R206). -/
def boardRequest (s : State) (f : Flit) : State :=
  let pa := leNat (f.payload.take 8)
  let n := leNat ((f.payload.drop 8).take 4)
  let ret := leNat ((f.payload.drop 12).take 8)
  if n ≤ 4096 ∧ (List.range n).all fun i => landsAt (pa + i) then
    boardWrite s (bits ret 57 56) (ret % 2 ^ 56) (readBytes s pa n)
  else s

/-- A DATA flit whose route is looked up in the table of its phase (R264, R265, R299). A flit with ROUTE 0xFFFF is one of a message to
this device's mailbox, delivered without lookup (R425): the message's effect is its own row, REFLECT_OFFER to SHARD_COPY. -/
def routedData (s : State) (port : Nat) (f : Flit) : State :=
  if f.route = 0xFFFF then
    if isMail f.rtok.toNat then deliver s f else countRouteDrop s port
  else
    match routeEntry s f.phase.toNat f.route.toNat with
    | none => countRouteDrop s port
    | some r =>
      if !r.valid then countRouteDrop s port
      else if r.isLocal then (if writesWork s f then countRouteDrop s port else deliver s f)
      else if !(s.port (physPort s r.egress)).used then dropForeign s port
      else sendFlit s (physPort s r.egress) { f with route := BitVec.ofNat 16 r.next }

/-- The rows of R302 for DATA. -/
def acceptData (s : State) (port : Nat) (f : Flit) : State :=
  let current := f.step == BitVec.ofNat 16 s.run.step
  if !takesData s then freePlace (dropMsgonly s port) port
  else if !genPartOk s f then freePlace (dropGenpart s port) port
  else if current && decide (s.run.attempt < f.attempt.toNat) then s.modPort port fun x => { x with held := x.held ++ [f] }
  else if current && decide (f.attempt.toNat < s.run.attempt) then freePlace (dropGenpart s port) port
  else if f.board then
    if !s.lnk.shared then freePlace (dropMsgonly s port) port
    else if f.bpos.toNat = s.lnk.bpos then freePlace (boardData s port f) port
    else freePlace (forwardBoard s port f) port
  else freePlace (routedData s port f) port

/-- The rows of R302 for RDREQ. -/
def acceptRdreq (s : State) (port : Nat) (f : Flit) : State :=
  if !takesData s then freePlace (dropMsgonly s port) port
  else if !genPartOk s f then freePlace (dropGenpart s port) port
  else if !s.lnk.shared || !f.board then freePlace (dropMsgonly s port) port
  else if f.bpos.toNat = s.lnk.bpos then freePlace (boardRequest s f) port
  else freePlace (forwardBoard s port f) port

/-- Held flits are taken again, at the start of the receiver's rerun. -/
def acceptHeld (s : State) : State :=
  forEach (List.range 48)
    (fun s n =>
      let l := (s.port n).held
      forEach l (fun s f => acceptData s n f) (s.modPort n fun x => { x with held := [] })) s

/-- Length of a refill's image. -/
def Fill.length (x : Fill) : Nat := (x.segs.map fun g => g.off + g.len).foldl Nat.max 0

/-- Writes bytes of a refill's image once the slot and the bank are known. -/
def fillPlace (x : Fill) (s : State) (e : Nat × List Byte) : State :=
  forEach (List.range e.2.length) (fun s i =>
    match x.segs.find? fun g => decide (g.off ≤ e.1 + i ∧ e.1 + i < g.off + g.len) with
    | some g => writeByte s ((if (if g.byBank then x.bankB else x.slotB) then g.base1 else g.base0) + (e.1 + i - g.off)) (e.2.getD i 0)
    | none => s) s

/-- Places bytes of a refill's image (R436): the stack record, at its front, names the slot and the bank, and what comes before it over
another port waits for it. -/
def fillWrite (s : State) (w : Nat) (x : Fill) (off : Nat) (bytes : List Byte) : State :=
  let f (i n : Nat) : Nat := leNat ((bytes.drop i).take n)
  let x := { x with came := x.came + bytes.length }
  if off = 0 then
    let y := { x with slotB := bit (f 4 4) 0, bankB := bit (f 20 1) 0, step := f 8 8, known := true, early := [] }
    forEach ((off, bytes) :: x.early) (fillPlace y) { s with lnk := { s.lnk with fills := tput s.lnk.fills w y } }
  else if x.known then fillPlace x { s with lnk := { s.lnk with fills := tput s.lnk.fills w x } } (off, bytes)
  else { s with lnk := { s.lnk with fills := tput s.lnk.fills w { x with early := x.early ++ [(off, bytes)] } } }

/-- A MSG flit: its window must be open and hold it (R302, R307). -/
def acceptMsg (s : State) (port : Nat) (f : Flit) : State :=
  let served := s.glb.state != .cold && s.glb.state != .booting
  let w := bits f.dst.toNat 55 48
  let off := bits f.dst.toNat 47 0
  let bytes := flitBytes f
  match tfind s.lnk.fills w, tfind s.lnk.windows w with
  | some x, _ =>
    if served && decide (off + bytes.length ≤ x.length) then freePlace (fillWrite s w x off bytes) port
    else freePlace (dropMsgonly { s with lnk := { s.lnk with fills := tput s.lnk.fills w { x with outside := true } } } port) port
  | none, some (base, len) =>
    if served && decide (off + bytes.length ≤ len) then freePlace (writeBytes s (base + off) bytes) port
    else freePlace (dropMsgonly s port) port
  | none, none => freePlace (dropMsgonly s port) port

/-! ### Meanings: flits -/

/-- FLIT_IDLE (R286). -/
def execFlitIdle (port : Nat) (f : Flit) (s : State) : Out :=
  guarded (.flitIdle port f) s fun s => if f.typ = 0 then flitIn s port f id else s
/-- FLIT_DATA (R302). -/
def execFlitData (port : Nat) (f : Flit) (s : State) : Out :=
  guarded (.flitData port f) s fun s => if f.typ = 1 then flitIn s port f (fun s => acceptData s port f) else s
/-- FLIT_MSG (R307). -/
def execFlitMsg (port : Nat) (f : Flit) (s : State) : Out :=
  guarded (.flitMsg port f) s fun s => if f.typ = 2 then flitIn s port f (fun s => acceptMsg s port f) else s
/-- FLIT_RDREQ (R309). -/
def execFlitRdreq (port : Nat) (f : Flit) (s : State) : Out :=
  guarded (.flitRdreq port f) s fun s => if f.typ = 4 then flitIn s port f (fun s => acceptRdreq s port f) else s

/-- Step, attempt and phase of a drain as one number. -/
def drainKey (step attempt phase : Nat) : Nat := step % 65536 * 128 + attempt * 8 + phase
def flitKey (f : Flit) : Nat := drainKey f.step.toNat f.attempt.toNat f.phase.toNat

/-- A number listed once. -/
def insertOnce (k : Nat) (l : List Nat) : List Nat := if l.contains k then l else l ++ [k]

/-- Code and argument of a CTRL flit. -/
def ctrlCode (f : Flit) : Nat := leNat (f.payload.take 1)
def ctrlArg (f : Flit) : Nat := leNat ((f.payload.drop 1).take 1)

/-- FLIT_DRAIN (R24, R286): it is acknowledged for its own step, attempt and phase. -/
def execFlitDrain (port : Nat) (f : Flit) (s : State) : Out :=
  guarded (.flitDrain port f) s fun s =>
    if f.typ = 3 ∧ ctrlCode f = 1 then
      flitIn s port f (fun s =>
        let s := s.modPort port fun x => { x with drainIn := insertOnce (flitKey f) x.drainIn }
        sendFlit s port
          { blankFlit s 3 with step := f.step, attempt := f.attempt, phase := f.phase, words := 1
                               payload := [2, 0] ++ List.replicate 510 0 })
    else s
/-- FLIT_DRAIN_ACK (R286). -/
def execFlitDrainAck (port : Nat) (f : Flit) (s : State) : Out :=
  guarded (.flitDrainAck port f) s fun s =>
    if f.typ = 3 ∧ ctrlCode f = 2 then
      flitIn s port f (fun s => s.modPort port fun x => { x with drainAck := insertOnce (flitKey f) x.drainAck })
    else s
/-- LANE_SWAP (R291): the sender moves the stream of the neighbour's receive lane onto its shadow lane. -/
def execLaneSwap (port : Nat) (f : Flit) (s : State) : Out :=
  guardedBy (decide (port < 48)) s fun s =>
    if f.typ = 3 ∧ ctrlCode f = 3 then
      flitIn s port f (fun s => if ctrlArg f < 8 then s.modPort port fun x => { x with txLane := some (ctrlArg f) } else s)
    else s

/-! ### Training and settlement -/

/-- Ports that train by themselves: DOWN and not held by FENCE_LINKS, not given up in BOOTING. -/
def mayTrain (s : State) (port : Nat) : Bool :=
  let x := s.port port
  s.glb.state != .cold && !s.inReset 3 && x.state == 0 && x.reason != 4 && linkClocked s port &&
  !(x.gaveUp && s.glb.state == .booting)

/-- SIGNAL_DETECT (R293): order 1 of training. -/
def execSignalDetect (port : Nat) (s : State) : Out :=
  guarded (.signalDetect port) s fun s =>
    if s.glb.state = .cold then s
    else
      let s := s.modPort port fun x => { x with signal := true }
      if mayTrain s port then s.modPort port fun x => { x with state := 1 } else s

/-- An idle tick on a port (R286, R293): training goes on by one order, from SIGNAL to LOCK, and from LOCK over the exchange of IDLE
flits to IDENT with the first identity message; a port that carries flits sends an IDLE that is due. DESIGN CHOICE (log 84): no
command says when, or whether, the lanes lock; in each tick that is free, and a port whose lanes never do stays in SIGNAL or LOCK
(R497). -/
def portTick (s : State) (port : Nat) : State :=
  if s.glb.state == .cold || s.inReset 3 || !linkClocked s port then s
  else
    let st := (s.port port).state
    if st = 1 ∨ st = 2 then
      let locks := (Config.freeByte s.fresh 0).getLsbD 0
      let s := s.ticket
      if !locks then s
      else if st = 1 then s.modPort port fun x => { x with state := 2 }
      else sendIdent ((sendIdle s port).modPort port fun x => { x with state := 3 }) port
    else if idleDue s port then sendIdle s port else s

/-- An idle tick on every port. -/
def linkTick (s : State) : State := forEach (List.range 48) portTick s

/-- TRAINING_TIMEOUT (R293): a training that has not reached order 5 restarts and counts; in BOOTING the eighth restart in a
row gives up. -/
def execTrainingTimeout (port : Nat) (s : State) : Out :=
  guarded (.trainingTimeout port) s fun s =>
    let x := s.port port
    if x.state = 1 ∨ x.state = 2 ∨ x.state = 3 then
      let n := x.restarts + 1
      s.setPort port { x with state := 0, identSent := false, fails := satInc 0xFFFF x.fails, restarts := n
                              gaveUp := x.gaveUp || (s.glb.state == .booting && decide (8 ≤ n)) }
    else s

/-- IDENT_RESEND (R293): every 10 µs in order 4, until the neighbour's message has come. -/
def execIdentResend (port : Nat) (s : State) : Out :=
  guarded (.identResend port) s fun s => if (s.port port).state = 3 ∧ s.inReset 3 = false then sendIdent s port else s

/-- Both replay buffers and what was received are emptied, and SEQ restarts (R293). -/
def restartSeq (s : State) (port : Nat) : State :=
  let s := s.modPort port fun x =>
    { x with txSeq := 0, rxSeq := 0xFFFF, told := 0xFFFF, replay := [], waiting := if x.announceReset then [] else x.waiting, held := [],
             credit := 4096, freed := 0, nak := false, resent := 0, awaiting := false, drainIn := [], drainAck := [] }
  if (s.port port).used then { s with run := { s.run with drainSent := false } } else s

/-- Link protocol versions held by both ends (R294): this edition holds version 1. -/
def settleProto (i : Ident) : Nat := if bit i.proto 1 then 1 else 0

/-- State and reason that a settlement gives (R294, R299, R304): under a plan, the neighbour must be the one that the wiring table
names, which the commit found there (R297). -/
def settlement (s : State) (port : Nat) (i : Ident) : Nat × Nat :=
  let x := s.port port
  let own := s.run.plan
  let planPart := (own.map (·.part)).getD 0
  let planFeat := (own.map (·.features)).getD 0
  let under := x.used && own.isSome
  if settleProto i = 0 then (5, 3)
  else if under && i.part != 0 && i.part != planPart then (5, 2)
  else if under && (match own.bind fun p => p.wires[x.logical]? with
    | some w => w.nserial != i.serial || w.nport != i.port
    | none => false) then (5, 5)
  else if decide (i.planfeat &&& s.fw.features ≠ i.planfeat) || decide (planFeat &&& i.features ≠ planFeat) then (6, 8)
  else (4, 0)

/-- Two identity messages say the same, RESET apart. -/
def sameIdentity (a b : Ident) : Bool := { a with reset := false, raw := [] } == { b with reset := false, raw := [] }

/-- A used port under a plan is UP again: what waits is sent, and the wait limits count again (R304). -/
def linkUp (s : State) (port : Nat) : State :=
  let s := s.modPort port fun x => { x with downSince := none, lostReported := false, restarts := 0, gaveUp := false, awaiting := false }
  startWaits (flushPort (resendAll s port) port)

/-- The neighbour is the buddy, or the device whose reflection is held. -/
def reflectsWith (s : State) (serial : BitVec 128) : Bool :=
  (s.spr.buddyUse != 0 && serial == s.spr.buddyUse) || (s.spr.heldUse != 0 && serial == s.spr.heldUse)

/-- IDENT (R292, R294): a message is settled on a port in training, UP, FENCED or in quarantine. In training it is acknowledged, and
answered where this port has not sent its own, before RESET counts as announced. A settlement that differs from the one before is
reported. A message outside training tells of a commit at the other end, which opens a reflection session anew (R293, R427). -/
def settleLink (s : State) (port : Nat) (i : Ident) : State :=
  let x := s.port port
  let training := x.state == 1 || x.state == 2 || x.state == 3
  let reset := training && (i.reset || x.announceReset)
  let s := if reset then restartSeq s port else s
  let out := settlement s port i
  let gen := settleGen (heldGens s) i.codec
  let changed := match x.nbr with
    | some o => !sameIdentity o i || x.codecGen != gen || (!training && x.state != out.1)
    | none => false
  let s := if training then (if x.identSent then sendIdle s port else sendIdent s port) else s
  let s := s.modPort port fun y =>
    { y with nbr := some i, proto := settleProto i, codecGen := gen, state := if out.1 = 5 then y.state else out.1
             reason := if out.1 = 5 then y.reason else out.2, announceReset := false, reached := true }
  let s := if !training && i.gen != 0 && reflectsWith s i.serial then { s with spr := { s.spr with renew := true } } else s
  let s := if changed then raiseOpen s 10 else s
  let s := if reset && x.used && s.run.plan.isSome && i.reset then taint s else s
  if out.1 = 5 then
    (if x.state = 5 then s.modPort port fun y => { y with reason := out.2 } else fencePort s port out.2)
  else if out.1 = 6 then loseLink s port
  else if training || x.state != 4 then linkUp s port
  else s

/-- What an identity message does on a port; one fenced for its lanes or its logic stays so (R290, R291), and a message whose CHECK
fails is discarded (R292). -/
def identIn (s : State) (port : Nat) (f : Flit) : State :=
  let x := s.port port
  if x.state = 5 ∧ (x.reason = 6 ∨ x.reason = 7) then s
  else match parseIdent ((f.payload.drop 4).take 128) with
    | some i => settleLink s port i
    | none => s

/-- A port hears identity messages: from LOCK on (R293), UP, FENCED or in quarantine. -/
def hearsIdent (s : State) (port : Nat) : Bool :=
  s.glb.state != .cold && !s.inReset 3 && linkClocked s port && decide (2 ≤ (s.port port).state)

/-- IDENT (R286, R294): a CTRL flit of code 4. Its parity, ACK, CREDIT, NAK and TAINT count as those of every flit; it is not numbered
(log 23). -/
def execIdent (port : Nat) (f : Flit) (s : State) : Out :=
  guarded (.ident port f) s fun s =>
    if f.typ ≠ 3 ∨ ctrlCode f ≠ 4 ∨ hearsIdent s port = false then s
    else if f.parity ≠ flitParity f then askReplay s port f
    else
      let s := seeTaint (takeAck s port f) f
      if hearsIdent s port then identIn s port f else s

/-- LINK_DOWN (R304): a port that trains or is UP goes DOWN and trains again. -/
def execLinkDown (port : Nat) (s : State) : Out :=
  guarded (.linkDown port) s fun s =>
    let st := (s.port port).state
    if st = 0 ∨ st = 5 then s else dropLink s port

/-- LINK_LOST (R304, R305): a used port has not been UP for `LNK_DOWN_LIMIT`. -/
def execLinkLost (port : Nat) (s : State) : Out :=
  guarded (.linkLost port) s fun s =>
    let x := s.port port
    match x.downSince with
    | some t => if x.state ≠ 4 ∧ s.now - t ≥ s.lnk.downLimit then loseLink s port else s
    | none => s

end Sys2Proof.Machine
end

