-- ==== Sys2Proof/Machine/Update.lean ====
section
/-!
DEFINITION. The update units: hyperparameter sets (R233, R234), the inner and outer rules (R231, R232, R236), the pass over
the tensors (R237 to R240, R503), the replica check (R432, R433) and the step commit (R241, R420 to R422).
-/
namespace Sys2Proof.Machine

/-! ### Hyperparameter sets -/

/-- Reset value of a field of a set: P1 and P2 are 1.0. -/
def hpDefault (field : Nat) : W32 := if field = 7 ∨ field = 8 then 0x3F800000 else 0
def UpdUnit.hpAt (u : UpdUnit) (set field : Nat) : W32 := tget (hpDefault field) u.hp (16 * set + field)
def UpdUnit.setHp (u : UpdUnit) (set field : Nat) (v : W32) : UpdUnit := { u with hp := tput u.hp (16 * set + field) v }

/-- The row of the schedule for a step: row min(step, N − 1). -/
def hpRow (p : Plan) (step : Nat) : List W32 := p.hpsched.getD (Nat.min step (p.hpsched.length - 1)) []

/-- Loads the seven RW fields of all sets from a row. -/
def UpdUnit.loadSets (u : UpdUnit) (row : List W32) : UpdUnit :=
  (List.range 56).foldl (fun u k => u.setHp (k / 7) (k % 7) (row.getD k 0)) u

/-- P1, P2 and APPLIED of all sets after one more inner update. -/
def UpdUnit.advanceSets (u : UpdUnit) : UpdUnit :=
  (List.range 8).foldl (fun u k =>
    let u := u.setHp k 7 (mul32 (u.hpAt k 7) (u.hpAt k 2))
    let u := u.setHp k 8 (mul32 (u.hpAt k 8) (u.hpAt k 3))
    u.setHp k 9 (BitVec.ofNat 32 (satInc 0xFFFFFFFF (u.hpAt k 9).toNat))) u

/-- P1, P2 and APPLIED as a fresh commit sets them. -/
def UpdUnit.resetSets (u : UpdUnit) : UpdUnit :=
  (List.range 8).foldl (fun u k => ((u.setHp k 7 0x3F800000).setHp k 8 0x3F800000).setHp k 9 0) u

/-- The hyperparameter set of a tensor as the rules read it. -/
structure Hyper where
  lr : W32
  wd : W32
  b1 : W32
  b2 : W32
  eps : W32
  lro : W32
  muo : W32
  p1 : W32
  p2 : W32
deriving DecidableEq, Repr

def UpdUnit.hyper (u : UpdUnit) (set : Nat) : Hyper :=
  { lr := u.hpAt set 0, wd := u.hpAt set 1, b1 := u.hpAt set 2, b2 := u.hpAt set 3, eps := u.hpAt set 4, lro := u.hpAt set 5,
    muo := u.hpAt set 6, p1 := u.hpAt set 7, p2 := u.hpAt set 8 }

/-! ### Inner rules (R232) -/

/-- sign of rule 5: ±1, +0 for ±0, NaN for NaN. -/
def sign32 (c : W32) : W32 :=
  let x := ofF32 c
  if x.isNan then 0x7FC00000 else if x.isZero then 0 else if x.sign then 0xBF800000 else 0x3F800000

def one32 : W32 := 0x3F800000

/-- The first moment of rules 3 and 4 and, with b2, the last line of rule 5. -/
def blend (b a g : W32) : W32 := add32 (mul32 b a) (mul32 (sub32 one32 b) g)

/-- m, v and d of rule 3. -/
def adamTerms (w m v g : W32) (h : Hyper) : W32 × W32 × W32 :=
  let m := blend h.b1 m g
  let v := add32 (mul32 h.b2 v) (mul32 (sub32 one32 h.b2) (mul32 g g))
  let mh := div32 m (sub32 one32 h.p1)
  let vh := div32 v (sub32 one32 h.p2)
  (m, v, add32 (div32 mh (add32 (sqrt32 vh) h.eps)) (mul32 h.wd w))

/-- inner of R232: the new w, m and v; `phi` is that of rule 4. -/
def innerRule (rule : Nat) (w m v g phi : W32) (h : Hyper) : W32 × W32 × W32 :=
  match rule with
  | 0 => (sub32 w (mul32 h.lr (add32 g (mul32 h.wd w))), m, v)
  | 1 =>
    let m := add32 (mul32 h.b1 m) (add32 g (mul32 h.wd w))
    (sub32 w (mul32 h.lr m), m, v)
  | 2 =>
    let gd := add32 g (mul32 h.wd w)
    let m := add32 (mul32 h.b1 m) gd
    (sub32 w (mul32 h.lr (add32 gd (mul32 h.b1 m))), m, v)
  | 3 =>
    let (m, v, d) := adamTerms w m v g h
    (sub32 w (mul32 h.lr d), m, v)
  | 4 =>
    let (m, v, d) := adamTerms w m v g h
    (sub32 w (mul32 h.lr (mul32 phi d)), m, v)
  | 5 =>
    let c := blend h.b1 m g
    (sub32 w (mul32 h.lr (add32 (sign32 c) (mul32 h.wd w))), blend h.b2 m g, v)
  | _ => (w, m, v)

/-- The rule writes m; the rule writes r. -/
def writesM (rule : Nat) : Bool := decide (1 ≤ rule ∧ rule ≤ 5)
def writesR (rule : Nat) : Bool := rule == 3 || rule == 4

/-- outer of R236: the new w, anchor and u. -/
def outerRule (rule : Nat) (w a u delta l : W32) (h : Hyper) : W32 × W32 × W32 :=
  let u' := if rule = 6 then add32 (mul32 h.muo u) delta else u
  let a' := if rule = 6 then sub32 a (mul32 h.lro (add32 delta (mul32 h.muo u'))) else sub32 a delta
  (add32 (add32 w (sub32 a' a)) l, a', u')

/-! ### The pass over a tensor -/

/-- Bytes of a gradient element. -/
def gradWidth (t : TensorDesc) : Nat := if t.gfmt = 0 then 4 else if t.gfmt = 1 then 2 else 1

/-- The gradient of parameter i (R231); `exp` is EXP of the step's COMPUTE. -/
def gradAt (s : State) (t : TensorDesc) (exp i : Nat) : W32 :=
  let c := widen (fmtOf t.gfmt) (readLe s (t.grad + gradWidth t * i) (gradWidth t))
  toF32 ((ofF32 (div32 c t.gfact)).mul (.fin false 1 (-(signedOf 8 exp))))

/-- Decoded narrow state of parameter i: m, u in E4M3, r in E5M2, by the row's factors. -/
def mAt (s : State) (n : Nat) (t : TensorDesc) (i : Nat) : W32 :=
  decodeRow .e4m3 (readLe s (mAddr n t i) 1) (readW s (factorAddr n t (i / 256) 0))
def rAt (s : State) (n : Nat) (t : TensorDesc) (i : Nat) : W32 :=
  decodeRow .e5m2 (readLe s (rAddr n t i) 1) (readW s (factorAddr n t (i / 256) 1))
def uAt (s : State) (n : Nat) (t : TensorDesc) (i : Nat) : W32 :=
  decodeRow .e4m3 (readLe s (uAddr n t i) 1) (readW s (factorAddr n t (i / 256) 2))
def vAt (s : State) (n : Nat) (t : TensorDesc) (i : Nat) : W32 := mul32 (rAt s n t i) (rAt s n t i)

/-- Norm of rule 4 over a list in parameter order. -/
def norm32 (xs : List W32) : W32 := sqrt32 (xs.foldl (fun a x => add32 a (mul32 x x)) 0)

/-- phi of rule 4 over the whole tensor. -/
def lambPhi (s : State) (n : Nat) (t : TensorDesc) (bank : Bool) (exp : Nat) (h : Hyper) : W32 :=
  let ws := readWs s (masterAddr n t bank 0) t.n
  let ds := (List.range t.n).map fun i =>
    (adamTerms (ws.getD i 0) (mAt s n t i) (vAt s n t i) (gradAt s t exp i) h).2.2
  let nw := norm32 ws
  let nd := norm32 ds
  let bad (x : W32) : Bool := (ofF32 x).isZero || !(ofF32 x).isFinite
  if bad nw || bad nd then one32 else div32 nw nd

/-- Writes a row of codes with its factor. -/
def writeRow (s : State) (addr factor : Nat) (f : NumFmt) (xs : List W32) : State :=
  let (codes, e) := encodeRow f xs
  writeW (writeBytes s addr (codes.map fun c => BitVec.ofNat 8 c)) factor e

/-- Masters that are not finite. -/
def nonfinite (ws : List W32) : Nat := (ws.filter fun w => !(ofF32 w).isFinite).length

/-- One row: reads bank C, writes bank N, the narrow state that the rules name, and the working copy (R237, R238). -/
def updateRow (n : Nat) (t : TensorDesc) (bank inner outer : Bool) (exp : Nat) (phi : W32) (h : Hyper) (s : State) (row : Nat) : State :=
  let s0 := s
  let idx := (List.range 256).map fun j => 256 * row + j
  let ws := readWs s0 (masterAddr n t bank (256 * row)) 256
  let first := (idx.zip ws).map fun x =>
    if inner then innerRule t.rule x.2 (mAt s0 n t x.1) (vAt s0 n t x.1) (gradAt s0 t exp x.1) phi h
    else (x.2, 0, 0)
  let second := (idx.zip first).map fun x =>
    if outer then
      let i := x.1
      let w := outerWidth t
      outerRule t.outer x.2.1 (readW s0 (anchorAddr n t i)) (uAt s0 n t i)
        (widen (outerFmt t) (readLe s0 (t.delta + w * i) w)) (widen (outerFmt t) (readLe s0 (t.localAddr + w * i) w)) h
    else (x.2.1, 0, 0)
  let news := second.map (·.1)
  let s := writeBytes s (masterAddr n t (!bank) (256 * row)) (news.flatMap fun w => leBytes 4 w.toNat)
  let s := if inner && writesM t.rule then writeRow s (mAddr n t (256 * row)) (factorAddr n t row 0) .e4m3 (first.map (·.2.1)) else s
  let s := if inner && writesR t.rule then
      writeRow s (rAddr n t (256 * row)) (factorAddr n t row 1) .e5m2 (first.map fun x => sqrt32 x.2.2) else s
  let s := if outer then writeBytes s (anchorAddr n t (256 * row)) (second.flatMap fun x => leBytes 4 x.2.1.toNat) else s
  let s := if outer && t.outer == 6 then writeRow s (uAddr n t (256 * row)) (factorAddr n t row 2) .e4m3 (second.map (·.2.2)) else s
  let s := writeWorkRow s t row news
  s.modUnit n fun u => { u with nonfinite := satAdd 0xFFFFFFFF u.nonfinite (nonfinite news) }

/-- A tensor's inner rule runs, or its outer rule, in this step (R236, R240). -/
def innerRuns (s : State) (t : TensorDesc) : Bool := t.rule != 15 && !s.run.skip
def outerRuns (s : State) (t : TensorDesc) : Bool := t.outer != 0 && s.ful.ready

/-- Parameter groups of a tensor: 16 rows each, the last one may be shorter. -/
def TensorDesc.groups (t : TensorDesc) : Nat := (t.rows + 15) / 16

/-- Rows of parameter group g of a tensor. -/
def TensorDesc.groupRows (t : TensorDesc) (g : Nat) : List Nat := (List.range (Nat.min 16 (t.rows - 16 * g))).map (16 * g + ·)

/-- One parameter group of tensor k in a step that writes masters (R237, R503). The ratio of rule 4 is taken over the whole tensor
before its first group is written. -/
def updateGroup (n : Nat) (s : State) (at_ : Nat × Nat) : State :=
  let (k, g) := at_
  match (programOf s n)[k]? with
  | none => s
  | some t =>
    let bank := bankOf s n
    let inner := innerRuns s t
    let outer := outerRuns s t
    let h := (s.unit n).hyper t.hpset
    let exp := s.run.stepExp
    let lamb := inner && t.rule == 4
    let s := if lamb && g == 0 then s.modUnit n fun u => { u with phi := lambPhi s n t bank exp h } else s
    let phi := if lamb then (s.unit n).phi else one32
    let copyRow (s : State) (row : Nat) : State :=
      let ws := readWs s (masterAddr n t bank (256 * row)) 256
      (writeBytes s (masterAddr n t (!bank) (256 * row)) (ws.flatMap fun w => leBytes 4 w.toNat)).modUnit n fun u =>
        { u with nonfinite := satAdd 0xFFFFFFFF u.nonfinite (nonfinite ws) }
    let s := forEach (t.groupRows g) (if inner || outer then updateRow n t bank inner outer exp phi h else copyRow) s
    s.modUnit n fun u => { u with wrote := true, lastGroup := some (k, g) }

/-- The step writes masters in a stack. -/
def stepWrites (s : State) (n : Nat) : Bool := (programOf s n).any fun t => innerRuns s t || outerRuns s t

/-- Digest of a shard in this step: over bank N where masters were written, else carried (R239). -/
def newDigest (s : State) (n : Nat) (wrote : Bool) (shard : Nat) : List Byte :=
  if wrote then shardDigest s n (programOf s n) (!bankOf s n) shard else tget [] (s.unit n).lastDigests shard

/-- The parameter groups that a unit has still to write in this step, in order (R228, R243). -/
def groupsLeft (s : State) (n : Nat) : List (Nat × Nat) :=
  if stepWrites s n then
    let prog := programOf s n
    let all := (List.range prog.length).flatMap fun k =>
      (List.range ((prog[k]?.map TensorDesc.groups).getD 0)).map fun g => (k, g)
    match (s.unit n).lastGroup with
    | none => all
    | some (k, g) => all.filter fun x => decide (k < x.1 ∨ (k = x.1 ∧ g < x.2))
  else []

/-- The rest of order 2 of R241 in one unit: the parameter groups not yet written, and the digests. -/
def runUnit (s : State) (n : Nat) : State :=
  let wrote := stepWrites s n
  let s := forEach (groupsLeft s n) (updateGroup n) s
  let digests := (shardsOf (programOf s n)).foldl (fun d k => tput d k (newDigest s n wrote k)) []
  s.modUnit n fun u => { u with digests := digests, done := true }

/-! ### The replica check (R432, R433) -/

/-- The stack whose update program holds a shard. -/
def shardStack (s : State) (shard : Nat) : Option Nat :=
  (List.range 20).find? fun n => (shardsOf (programOf s n)).contains shard

/-- Index of a torus position in a job (R432). -/
def posIndex (p : Plan) (pos : Nat × Nat × Nat) : Nat := pos.1 + p.dims.1 * (pos.2.1 + p.dims.2.1 * pos.2.2)

/-- This device's index. -/
def ownIndex (s : State) : Nat := match s.run.plan with | some p => posIndex p p.pos | none => 0

/-- A message to a replica peer: one transfer on a route of the UPDATE phase (R425, R432). -/
def sendRouted (s : State) (code route : Nat) (content : List Byte) : State :=
  match routeEntry s 2 route with
  | none => s
  | some r =>
    let port := physPort s r.egress
    if !r.valid then countRouteDrop s port else sendTransfer s port (mailFlit s code r.next) 0 content

/-- Sends a digest transfer on one route; it names step, shard, position, flag and digest. -/
def sendDigest (s : State) (shard flag route : Nat) (digest : List Byte) : State :=
  let pos := match s.run.plan with | some p => p.pos | none => (0, 0, 0)
  sendRouted s 0 route
    (leBytes 8 s.run.step ++ leBytes 2 shard ++ [BitVec.ofNat 8 pos.1, BitVec.ofNat 8 pos.2.1, BitVec.ofNat 8 pos.2.2, BitVec.ofNat 8 flag] ++ digest)

/-- The replica entries of shards that a stack holds. -/
def replicasIn (s : State) (n : Nat) : List ReplicaEntry :=
  s.spr.replicasUse.filter fun r => shardStack s r.shard == some n

/-- A unit's digests are final: those of replicated shards are sent. -/
def sendDigests (s : State) (n : Nat) : State :=
  forEach (replicasIn s n) (fun s r => forEach r.routes (fun s q => sendDigest s r.shard 0 q (tget [] (s.unit n).digests r.shard)) s) s

/-- Digests known of a shard in this step, with a flag: index and digest of each device that sent one. -/
def peerDigests (s : State) (shard flag : Nat) : List (Nat × List Byte) :=
  (s.spr.digests.filter fun d => decide (d.step = s.run.step ∧ d.shard = shard ∧ d.flag = flag)).map fun d => (d.pos, d.digest)

/-- Every replica's digest, this device's included, where all are known. -/
def allDigests (s : State) (r : ReplicaEntry) : Option (List (Nat × List Byte)) :=
  (shardStack s r.shard).bind fun n =>
    let peers := peerDigests s r.shard 0
    if (s.unit n).done ∧ peers.length + 1 = r.n then some ((ownIndex s, tget [] (s.unit n).digests r.shard) :: peers) else none

/-- The lowest index of a list. -/
def lowest (l : List (Nat × List Byte)) : Nat := l.foldl (fun a e => Nat.min a e.1) (l.headD (0, [])).1

/-- The route to a replica: routes are listed in ascending index of the peers (log 27). -/
def routeTo (s : State) (r : ReplicaEntry) (all : List (Nat × List Byte)) (peer : Nat) : Nat :=
  r.routes.getD (all.filter fun e => decide (e.1 < peer ∧ e.1 ≠ ownIndex s)).length 0xFFFF

/-- The bytes of a shard's new state, tensor by tensor in list order: masters of bank N, m, r, anchor, u, row factors (R433). -/
def shardImage (s : State) (n shard : Nat) : List Byte :=
  ((programOf s n).filter fun t => t.shard == shard).flatMap fun t =>
    readBytes s (masterAddr n t (!bankOf s n) 0) (4 * t.n) ++ readBytes s (mAddr n t 0) t.n ++ readBytes s (rAddr n t 0) t.n ++
    readBytes s (anchorAddr n t 0) (4 * t.n) ++ readBytes s (uAddr n t 0) t.n ++ readBytes s (factorAddr n t 0 0) (12 * t.rows)

/-- Sends a shard copy (code 6) to a replica. -/
def sendCopy (s : State) (r : ReplicaEntry) (all : List (Nat × List Byte)) (peer : Nat) : State :=
  match shardStack s r.shard with
  | some n => sendRouted s 6 (routeTo s r all peer) (leBytes 2 r.shard ++ shardImage s n r.shard)
  | none => s

/-- The digest held by more than half of the replicas. -/
def majority (n : Nat) (all : List (Nat × List Byte)) : Option (List Byte) :=
  (all.find? fun e => decide (2 * (all.filter fun x => x.2 == e.2).length > n)).map (·.2)

/-- The verdict on a replica's committed masters: the digest recomputed over them and sent with flag 1 is that of the last
record (log 28). -/
def verdictFails (s : State) (n shard : Nat) (recomputed : List Byte) : Bool := recomputed != tget [] (s.unit n).lastDigests shard

/-- The digest that the replicas agree on, and the device that holds it with the lowest index; none while a verdict of two
replicas is still to come. The flag says that the case is undecided. -/
def agreed (s : State) (r : ReplicaEntry) (all : List (Nat × List Byte)) : Option (List Byte × Nat × Bool) :=
  let holder (d : List Byte) : Nat := lowest (all.filter fun e => e.2 == d)
  let own := ownIndex s
  let digestOf (i : Nat) : List Byte := ((all.find? fun e => e.1 == i).map (·.2)).getD []
  match majority r.n all with
  | some d => some (d, holder d, false)
  | none =>
    if r.n ≠ 2 then some (digestOf (lowest all), lowest all, true)
    else
      match shardStack s r.shard, peerDigests s r.shard 1 with
      | some n, (peer, theirs) :: _ =>
        let mine := verdictFails s n r.shard (shardDigest s n (programOf s n) (bankOf s n) r.shard)
        let his := verdictFails s n r.shard theirs
        if mine && !his then some (digestOf peer, peer, false)
        else if his && !mine then some (digestOf own, own, false)
        else some (digestOf (lowest all), lowest all, true)
      | _, _ => none

/-- The shards of the step have settled. -/
def replicasSettled (s : State) : Bool :=
  s.spr.replicasUse.all fun r => (shardStack s r.shard).isNone || s.spr.settled.contains r.shard

/-- Decides a shard once every digest is known: equal, a copy to others, a copy from another, or a verdict to send. -/
def decideShard (s : State) (r : ReplicaEntry) : State :=
  if s.spr.settled.contains r.shard || s.spr.copiesDue.contains r.shard then s
  else
    match allDigests s r with
    | none => s
    | some all =>
      let own := ownIndex s
      let mine := (all.headD (0, [])).2
      if all.all fun e => e.2 == mine then { s with spr := { s.spr with settled := s.spr.settled ++ [r.shard] } }
      else
        let s := if s.spr.differing then s
          else { s with spr := { s.spr with differing := true, mismatch := satInc 0xFFFF s.spr.mismatch } }
        match agreed s r all with
        | none => s
        | some (d, holder, undecided) =>
          let s := if undecided then
              raiseOpen { s with spr := { s.spr with undecided := satInc 0xFF s.spr.undecided } } 15 else s
          if mine == d then
            let s := if holder = own then
                forEach (all.filter fun e => e.2 != d) (fun s e => sendCopy s r all e.1) s else s
            { s with spr := { s.spr with settled := s.spr.settled ++ [r.shard] } }
          else { s with spr := { s.spr with copiesDue := s.spr.copiesDue ++ [r.shard] } }

/-- Two replicas that differ: this device sends its verdict once, when both first digests are known. -/
def sendVerdict (s : State) (r : ReplicaEntry) : State :=
  match allDigests s r, shardStack s r.shard with
  | some all, some n =>
    if r.n = 2 ∧ (all.any fun e => e.2 != (all.headD (0, [])).2) = true then
      forEach r.routes (fun s q => sendDigest s r.shard 1 q (shardDigest s n (programOf s n) (bankOf s n) r.shard)) s
    else s
  | _, _ => s

/-! ### The records (R420 to R422) -/

/-- `GLB_LOSS_SCALE` (R62). -/
def lossScaleWord (s : State) : Nat := b2n s.glb.lsOvf * 2 ^ 31 + s.glb.lsClean % 2 ^ 15 * 2 ^ 16 + s.glb.lsExp % 256

/-- The step-record tensors of a stack, end to end. -/
def recordTensors (s : State) (n : Nat) : List Byte := (recordRegions s n).flatMap fun r => readBytes s r.base r.length

/-- Bytes padded with 0 to a length. -/
def padTo (n : Nat) (bs : List Byte) : List Byte := bs ++ List.replicate (n - bs.length) 0

/-- Bytes 0 to 3,855 of a stack record (R421). -/
def stackRecord (s : State) (p : Plan) (n seq : Nat) (bank : Bool) (tensors : List Byte) : List Byte :=
  let u := s.unit n
  let sets := (List.range 8).flatMap fun k => [7, 8, 9].flatMap fun f => leBytes 4 (u.hpAt k f).toNat
  let shards := shardsOf (programOf s n)
  let digests := shards.flatMap fun k => leBytes 2 k ++ [0, 0] ++ padTo 32 (tget [] u.digests k)
  padTo 256 (leBytes 4 0x53544B52 ++ leBytes 4 seq ++ leBytes 8 s.run.step ++ leBytes 4 p.gen ++
    [BitVec.ofNat 8 (b2n bank), BitVec.ofNat 8 n] ++ leBytes 2 shards.length ++ leBytes 8 tensors.length ++ leBytes 4 (crc32c tensors) ++
    [0, 0, 0, 0] ++ sets) ++ padTo 3600 digests

/-- The bank that the record of a stack names: N where masters were written. -/
def nextBank (s : State) (n : Nat) : Bool := if (s.unit n).wrote then !bankOf s n else bankOf s n

/-- Cursor of a stream after a committed step: training streams advance by PER (R407). -/
def nextCursor (s : State) (p : Plan) (k : Nat) : Nat :=
  match p.streams[k]? with
  | some e => (s.stream k).cursor + (if e.kind = 0 then e.per else 0)
  | none => 0

/-- Bytes 0 to 29,315 of the device record (R422). -/
def deviceRecord (s : State) (p : Plan) (seq : Nat) (scrcs : List Nat) : List Byte :=
  let flags := b2n s.run.skip + 2 * b2n ((List.range 20).any fun n => (s.unit n).wrote) + 4 * b2n s.ful.ready
  let rng := (List.range 40).flatMap fun g => (List.range 16).flatMap fun k =>
    let r := tget (0, 0) (s.cluster g).rng k
    leBytes 4 r.1.toNat ++ leBytes 16 r.2.toNat
  let cursors := (List.range p.streams.length).flatMap fun k => leBytes 8 (nextCursor s p k)
  let body :=
    padTo 128 (leBytes 4 0x44455652 ++ leBytes 4 seq ++ leBytes 8 s.run.step ++ leBytes 4 p.gen ++
      leBytes 4 (lossScaleWord s % 2 ^ 31) ++ leBytes 4 flags ++ leBytes 4 (s.die 0).formed ++ leBytes 4 (s.die 1).formed ++
      leBytes 4 p.streams.length ++ scrcs.flatMap fun c => leBytes 4 c) ++ rng ++ padTo 16384 cursors
  body ++ leBytes 4 (crc32c body)

/-- Writes the records of the step into slot X (orders 5 to 7 of R241). -/
def writeRecords (s : State) (p : Plan) (seq : Nat) : State :=
  let slot := slotOf seq
  let recs := (List.range 20).map fun n =>
    let tensors := recordTensors s n
    (n, stackRecord s p n seq (nextBank s n) tensors, tensors)
  let dev := deviceRecord s p seq (recs.map fun r => crc32c r.2.1)
  let s := forEach recs (fun s r =>
    writeBytes (writeBytes s (denseAddr r.1 (slot + 0x100000)) r.2.2) (denseAddr r.1 slot) (padTo 4096 r.2.1)) s
  let s := writeBytes (s.fillSlot slot) (denseAddr 0 (slot + 0x1000)) dev
  writeBytes s (denseAddr 19 (slot + 0x1000)) dev

/-! ### The commit -/

/-- Counts a committed step towards the next mark, and writes the mark where it is due (R244). -/
def markStep (s : State) : State :=
  let s := { s with glb := { s.glb with sinceMark := s.glb.sinceMark + 1 } }
  if s.glb.sinceMark ≥ s.glb.markInterval then writeMark s else s

/-- SKIPS and FLOOR_HITS at the commit point (R65): a floor hit leaves EXP where the step's COMPUTE had it. -/
def countSkip (s : State) : State :=
  if s.run.skip then
    { s with glb := { s.glb with
        lsSkips := satInc 0xFFFF s.glb.lsSkips
        lsFloorHits := if signedOf 8 s.run.stepExp = -14 then satInc 0xFFFF s.glb.lsFloorHits else s.glb.lsFloorHits } }
  else s

/-- Orders 5 to 8 of R241. -/
def commitStep (s : State) (p : Plan) : State :=
  let seq := match s.run.recordSeq with | some q => (q + 1) % 2 ^ 32 | none => 0
  let s := freeRound (countSkip (writeRecords s p seq))
  let s := forEach (List.range 20) (fun s n =>
    let b := nextBank s n
    s.modUnit n fun u => { u with bank := b, committed := s.run.step, busy := false, lastDigests := u.digests }) s
  let s := forEach (List.range p.streams.length) (fun s k =>
    let c := nextCursor s p k
    s.modStream k fun x => { x with cursor := c, landed := x.landed.filter fun r => decide (c ≤ r), noted := Nat.max x.noted c
                                    reads := x.reads.filter fun r => decide (c ≤ r.record), stalled := false }) s
  let s := { s with run := { s.run with commitDone := true, committed := some s.run.step, recordSeq := some seq } }
  markStep s

/-- The commit goes on: the phase is COMMIT, nothing abandons it, every shard has settled. QUIESCE lets it complete (R243). -/
def mayCommit (s : State) : Bool :=
  runInProgress s && (s.glb.state == .running || s.isx.parking) && !s.run.abandoned && s.run.phase == 3 && !s.run.commitDone &&
  !s.pwr.dip && !s.inReset 2 && replicasSettled s

/-- COMMIT where it can be made (R241). -/
def tryCommit (s : State) : State :=
  match s.run.plan with
  | some p => if mayCommit s then commitStep s p else s
  | none => s

/-! ### Meanings -/

/-- The update unit of a stack runs: UPDATE, formation done, the stack logic clocked, no dip (R338, R476, R480, R485). -/
def unitRuns (s : State) (n : Nat) : Bool :=
  s.glb.state == .running && !s.run.abandoned && s.run.phase == 2 && !(s.unit n).done && !s.inReset 2 &&
  (s.ful.closed.isNone || s.ful.ready) && !s.pwr.dip && stackServes s n

/-- In an idle tick each unit that runs writes one parameter group (log 44). -/
def updateTick (s : State) : State :=
  forEach (List.range 20) (fun s n =>
    if unitRuns s n then
      match (groupsLeft s n).head? with
      | some g => updateGroup n s g
      | none => s
    else s) s

/-- UPDATE_DONE (R241): a unit has processed its tensors and reports done. -/
def execUpdateDone (stack : Nat) (s : State) : Out :=
  guarded (.updateDone stack) s fun s =>
    if unitRuns s stack then
      let s := sendDigests (runUnit s stack) stack
      forEach (replicasIn s stack) (fun s r => decideShard (sendVerdict s r) r) s
    else s

/-- DIGEST_TRANSFER (R432): a peer's digest of a replicated shard, in the place of an earlier one of the same step. -/
def execDigestTransfer (step shard : Nat) (pos : Nat × Nat × Nat) (flag : Nat) (digest : List Byte) (s : State) : Out :=
  guarded (.digestTransfer step shard pos flag digest) s fun s =>
    match s.run.plan, s.spr.replicasUse.find? fun r => r.shard == shard with
    | some p, some r =>
      let d : PeerDigest := { step := step, shard := shard, pos := posIndex p pos, flag := flag, digest := digest }
      let old (x : PeerDigest) : Bool := decide (x.step = step ∧ x.shard = shard ∧ x.pos = d.pos ∧ x.flag = flag)
      if runInProgress s = false then s
      else
        let s := { s with spr := { s.spr with digests := s.spr.digests.filter (fun x => !old x) ++ [d] } }
        let s := if flag = 0 ∧ step = s.run.step then sendVerdict s r else s
        if s.run.abandoned then s else tryCommit (decideShard s r)
    | _, _ => s

/-- Writes the image of a shard: masters into bank N, the rest in place, working copies from the new masters (R433); masters that are
not finite count (R240). -/
def applyShard (s : State) (n shard : Nat) (im : ShardImage) : State :=
  let go := ((programOf s n).filter fun t => t.shard == shard).foldl
    (fun (acc : State × Nat × Nat) t =>
      let (s, k, rows) := acc
      let bank := !bankOf s n
      let s := writeBytes s (masterAddr n t bank 0) ((im.masters.drop (4 * k)).take (4 * t.n))
      let s := writeBytes s (mAddr n t 0) ((im.m.drop k).take t.n)
      let s := writeBytes s (rAddr n t 0) ((im.r.drop k).take t.n)
      let s := writeBytes s (anchorAddr n t 0) ((im.anchor.drop (4 * k)).take (4 * t.n))
      let s := writeBytes s (uAddr n t 0) ((im.u.drop k).take t.n)
      let s := writeBytes s (factorAddr n t 0 0) ((im.factors.drop (12 * rows)).take (12 * t.rows))
      let s := s.modUnit n fun u => { u with nonfinite := satAdd 0xFFFFFFFF u.nonfinite (nonfinite (readWs s (masterAddr n t bank 0) t.n)) }
      (rederiveRows s n t bank 0 t.rows, k + t.n, rows + t.rows)) (s, 0, 0)
  go.1

/-- SHARD_COPY (R433). -/
def execShardCopy (stack shard : Nat) (image : ShardImage) (s : State) : Out :=
  guarded (.shardCopy stack shard image) s fun s =>
    match s.spr.replicasUse.find? fun r => r.shard == shard with
    | none => s
    | some r =>
      if !s.spr.copiesDue.contains shard || shardStack s shard != some stack || s.run.abandoned then s
      else
        match (allDigests s r).bind fun all => agreed s r all with
        | none => s
        | some (d, _, _) =>
          let s := applyShard s stack shard image
          let got := shardDigest s stack (programOf s stack) (!bankOf s stack) shard
          let s := s.modUnit stack fun u => { u with digests := tput u.digests shard got }
          let s := { s with spr := { s.spr with copies := satInc 0xFF s.spr.copies, copiesDue := s.spr.copiesDue.filter (· != shard) } }
          if got = d then tryCommit { s with spr := { s.spr with settled := s.spr.settled ++ [shard] } }
          else
            -- REPLAY_FAIL against the receiving stack interface: which of its lane groups is open.
            let k := (Config.freeByte s.fresh 0).toNat
            taint (markLasting (s.ticket.modStack stack fun x => { x with lost := satInc 0xFFFFFFFF x.lost }) (.laneGroup (32 + stack) k))

end Sys2Proof.Machine
end

