-- ==== Sys2Proof/Machine/Reflect.lean ====
section
/-!
DEFINITION. The reflection (R424 to R431): the image, the offer, what REFLECT sends, what a holder applies, and restores.
-/
namespace Sys2Proof.Machine

/-! ### The header of a held reflection (R426) -/

/-- Header fields of a held reflection: it names a sender; its serial; HELD. -/
def heldMagic (s : State) (r : Region) : Bool := readLe s r.base 4 == 0x5245464C
def heldSerial (s : State) (r : Region) : BitVec 128 := BitVec.ofNat 128 (readLe s (r.base + 8) 16)
def heldStep (s : State) (r : Region) : Nat := readLe s (r.base + 32) 8

/-! ### Offers (R427) -/

/-- The offer's content: serial, GEN, codec generations, image sizes, and as holder HELD and the sender named. -/
def offerBytes (s : State) : List Byte :=
  let sizes := (List.range 20).flatMap fun n => leBytes 8 (imageSize (programOf s n))
  let held : List Byte := match reflectionRegion s 0 with
    | some r => leBytes 8 (heldStep s r) ++ readBytes s (r.base + 8) 16
    | none => leBytes 8 noStep ++ List.replicate 16 0
  leBytes 16 Config.serial.toNat ++ leBytes 4 ((s.run.plan.map (·.gen)).getD 0) ++
  ((heldGens s ++ [0, 0, 0, 0]).take 4).map (BitVec.ofNat 8) ++ sizes ++ held

/-- Sends the offer to a neighbour. -/
def sendOffer (s : State) (serial : BitVec 128) : State := sendMailbox s 1 (usedTo s serial) (offerBytes s)

/-! ### REFLECT (R428) -/

/-- What REFLECT sends of a tensor: image offset, difference or full, bytes. -/
def tensorPieces (s : State) (n : Nat) (t : TensorDesc) (off : Nat) (whole : Bool) : List (Nat × Bool × List Byte) :=
  let bank := bankOf s n
  let masters := readBytes s (masterAddr n t bank 0) (4 * t.n)
  let mr := readBytes s (mAddr n t 0) t.n ++ readBytes s (rAddr n t 0) t.n
  let au := readBytes s (anchorAddr n t 0) (4 * t.n) ++ readBytes s (uAddr n t 0) t.n
  let factors := readBytes s (factorAddr n t 0 0) (12 * t.rows)
  if whole then [(off, false, masters ++ mr ++ au ++ factors)]
  else
    let old := readBytes s (masterAddr n t (!bank) 0) (4 * t.n)
    [(off, true, (masters.zip old).map fun x => x.1 ^^^ x.2), (off + 4 * t.n, false, mr), (off + 11 * t.n, false, factors)] ++
    (if t.outer != 0 && s.ful.ready then [(off + 6 * t.n, false, au)] else [])

/-- The records of a stack in the image. -/
def recordPieces (s : State) (n : Nat) : List (Nat × Bool × List Byte) :=
  match recordSlot s with
  | none => []
  | some slot =>
    let tensors := (recordRegions s n).map (·.length)
    [(0, false, readBytes s (denseAddr n slot) 4096)] ++
    (if n = 0 ∨ n = 19 then [(0x1000, false, readBytes s (denseAddr n (slot + 0x1000)) 29316)] else []) ++
    (if tensors.sum = 0 then [] else [(0x100000, false, readBytes s (denseAddr n (slot + 0x100000)) tensors.sum)])

/-- Parts of at most 64 KiB. -/
def splitPiece (p : Nat × Bool × List Byte) : List (Nat × Bool × List Byte) :=
  (List.range ((p.2.2.length + 65535) / 65536)).map fun i => (p.1 + 65536 * i, p.2.1, (p.2.2.drop (65536 * i)).take 65536)

/-- A shard as REFLECT sends it: stack, shard, pieces. -/
structure ShardSend where
  stack : Nat
  shard : Nat
  pieces : List (Nat × Bool × List Byte)

/-- Sends a block of the reflection in a generation to the buddy: stack, shard, image offset, difference or full, step, the blocks of its
shard and the shards of the reflection, block. -/
def sendBlock (s : State) (gen shards : Nat) (x : ShardSend) (p : Nat × Bool × List Byte) : State :=
  let (b, raw) := encodeBlock s gen 5 p.2.2
  let s := countBlock s raw
  sendMailbox s 2 (usedTo s s.spr.buddyUse)
    ([BitVec.ofNat 8 x.stack] ++ leBytes 2 x.shard ++ leBytes 8 p.1 ++ [BitVec.ofNat 8 (b2n p.2.1)] ++ leBytes 8 s.run.step ++
      leBytes 4 x.pieces.length ++ leBytes 2 shards ++ b)

/-- How a shard is sent: in full (true) or as differences (false); none: not at all. -/
abbrev ShardMode := Nat → Nat → Option Bool

/-- The shards of a stack with their pieces. Differences are sent of tensors whose masters the step wrote. -/
def shardPieces (s : State) (n : Nat) (how : ShardMode) : List ShardSend :=
  let prog := programOf s n
  (shardsOf prog).filterMap fun k => (how n k).bind fun whole =>
    if whole || (s.unit n).wrote then
      some { stack := n, shard := k, pieces := (List.range prog.length).flatMap fun i =>
        match prog[i]? with
        | some t => if t.shard = k then (tensorPieces s n t (tensorOffset prog i) whole).flatMap splitPiece else []
        | none => [] }
    else none

/-- Shard number of the records in the messages of REFLECT. -/
def recordShard : Nat := 0xFFFF

/-- Sends shards in a generation. -/
def sendShards (s : State) (gen : Nat) (shards : List ShardSend) : State :=
  let l := shards.filter fun x => !x.pieces.isEmpty
  forEach l (fun s x => forEach x.pieces (fun s p => sendBlock s gen l.length x p) s) s

/-- The records of every stack, as a shard each. -/
def recordShards (s : State) : List ShardSend :=
  (List.range 20).map fun n => { stack := n, shard := recordShard, pieces := (recordPieces s n).flatMap splitPiece }

/-- Every shard in full, or as differences. -/
def allWhole (whole : Bool) : ShardMode := fun _ _ => some whole

/-- Sends the reflection of the committed state. -/
def sendReflection (s : State) (how : ShardMode) : State :=
  let whole := (List.range 20).any fun n => (shardsOf (programOf s n)).any fun k => how n k == some true
  let s := sendShards s s.spr.reflectGen ((List.range 20).flatMap (fun n => shardPieces s n how) ++ recordShards s)
  { s with spr := { s.spr with reflect := if whole then .full else .difference } }

/-- Sends shards again, in raw blocks with full values (R328, R429). -/
def resendShards (s : State) (missing : List (Nat × Nat)) : State :=
  let tensors := (List.range 20).flatMap fun n => shardPieces s n (allWhole true)
  sendShards s 0 ((tensors ++ recordShards s).filter fun k => missing.contains (k.stack, k.shard))

/-- Each end offers at the first REFLECT after a commit or REPAIR_DONE: as holder, to the device whose reflection is held (R427). -/
def offerAsHolder (s : State) : State :=
  if s.spr.renew && s.spr.heldUse != 0 && s.spr.heldUse != s.spr.buddyUse then sendOffer s s.spr.heldUse else s

/-- REFLECT starts (order 9 of R241): with no buddy it ends at once; a session that is to be opened, or that an unfinished REFLECT has
left unsure, offers first, since the holder's tags decide what is sent (R427, R431, log 31). -/
def startReflect (s : State) : State :=
  let s := offerAsHolder s
  if s.spr.buddyUse = 0 then { s with run := { s.run with reflectDone := true }, spr := { s.spr with renew := false } }
  else if s.spr.renew || s.spr.reflect == .none || s.spr.reflect == .opening then
    sendOffer { s with spr := { s.spr with renew := false, reflect := .opening } } s.spr.buddyUse
  else if s.spr.reflect == .unsure then sendOffer s s.spr.buddyUse
  else sendReflection s (allWhole (s.spr.reflect == .full))

/-- REFLECT starts again after a reset of UPDATE or FABRIC: the session is unsure of the shards that it had begun to send (R431). -/
def restartReflect (s : State) : State :=
  startReflect (if s.spr.reflect = .full ∨ s.spr.reflect = .difference then { s with spr := { s.spr with reflect := .unsure } } else s)

/-- The previous committed step as the holder should have it. -/
def previousStep (s : State) : Option Nat :=
  match s.run.committed with
  | some k => if s.run.commitDone then (if k = 0 then none else some (k - 1)) else some k
  | none => none

/-- The regions held are large enough for a sender's image. -/
def regionsFit (s : State) (sizes : List Nat) : Bool :=
  (List.range 20).all fun n =>
    match reflectionRegion s n with
    | some r => decide (sizes.getD n 0 + 4096 ≤ r.length)
    | none => decide (sizes.getD n 0 = 0)

/-- A holder's header takes a new sender's name: HELD and the tags name no step. -/
def nameSender (s : State) (serial : BitVec 128) (gen : Nat) : State :=
  forEach (List.range 20) (fun s n =>
    match reflectionRegion s n with
    | none => s
    | some r =>
      if heldMagic s r && heldSerial s r == serial then writeBytes s (r.base + 24) (leBytes 4 gen)
      else
        writeBytes s r.base
          (leBytes 4 0x5245464C ++ [0, 0, 0, 0] ++ leBytes 16 serial.toNat ++ leBytes 4 gen ++ [0, 0, 0, 0] ++ leBytes 8 noStep ++
            (List.replicate 100 (List.replicate 4 (0 : Byte) ++ List.replicate 8 0xFF)).flatten)) s

/-- REFLECT is under way. -/
def reflecting (s : State) : Bool := runInProgress s && s.run.phase == 4 && s.run.commitDone && !s.run.reflectDone

/-- The shards of every stack's update program. -/
def everyShard (s : State) : List (Nat × Nat) := (List.range 20).flatMap fun n => (shardsOf (programOf s n)).map fun k => (n, k)

/-- The step that the holder has last applied to a shard. -/
def heldTag (o : ReflectOffer) (n k : Nat) : Nat :=
  ((o.tags.find? fun x => x.1 == n && x.2.1 == k).map (·.2.2)).getD noStep

/-- What the holder's header names, HELD and every shard tag: differences may be sent (R427). -/
def holderCurrent (s : State) (o : ReflectOffer) : Bool :=
  o.heldSerial == Config.serial && some o.held == previousStep s && (everyShard s).all fun x => some (heldTag o x.1 x.2) == previousStep s

/-- What an unsure session sends: nothing of a shard tagged with this step, differences of one tagged with the step before, and any other
in full (R431). -/
def byTags (s : State) (o : ReflectOffer) : ShardMode := fun n k =>
  let tag := heldTag o n k
  if o.heldSerial = Config.serial ∧ tag = s.run.step then none
  else some (!(o.heldSerial == Config.serial && some tag == previousStep s))

/-- An offer of this end is under way: the session opens, or is unsure. -/
def offered (s : State) : Bool := s.spr.reflect == .opening || s.spr.reflect == .unsure

/-- The buddy's offer settles the generation and the mode (R325, R427). One that answers this end's own offer within REFLECT lets it go
on; one that comes unasked means that the buddy has rejoined, and its session opens again at the next REFLECT. -/
def settleReflect (s : State) (o : ReflectOffer) : State :=
  let asked := offered s
  let same := holderCurrent s o
  let s := { s with spr := { s.spr with
    reflectGen := settleGen (heldGens s) o.gens
    renew := s.spr.renew || (!asked && s.spr.buddyUse != s.spr.heldUse) } }
  if asked && reflecting s then sendReflection s (if s.spr.reflect = .unsure then byTags s o else allWhole (!same))
  else if reflecting s then s
  else { s with spr := { s.spr with reflect := if same then .difference else .full } }

/-- A sender's offer begins its session anew for the holder: the header names the sender, and what had come of a reflection not ended is
sent again. -/
def openAsHolder (s : State) (o : ReflectOffer) : State :=
  nameSender { s with spr := { s.spr with erased := [], received := [], whole := [] } } o.serial o.gen

/-- REFLECT_OFFER (R427): from the buddy, it settles the session; from the device whose reflection is held, it is answered, unless it
is itself the answer. A holder's region that is too small is a plan fault of both devices (R426). DESIGN CHOICE (log 83): the sender
learns of it by the holder's offer. -/
def execReflectOffer (o : ReflectOffer) (s : State) : Out :=
  guarded (.reflectOffer o) s fun s =>
    let fromBuddy := s.spr.buddyUse != 0 && o.serial == s.spr.buddyUse
    let fromSender := s.spr.heldUse != 0 && o.serial == s.spr.heldUse
    let answer := fromSender && !(fromBuddy && offered s)
    if s.run.plan.isNone then s
    else if (fromSender && !regionsFit s o.sizes) || (fromBuddy && !o.fits) then endRun (raiseOpen s 1)
    else
      let s := if answer then openAsHolder s o else s
      let s := if fromBuddy then settleReflect s o else s
      if answer then sendOffer s o.serial else s

/-- The acknowledgement (code 3): the step, and the shards whose acknowledgement is withheld. -/
def sendReflectAck (s : State) (step : Nat) (missing : List (Nat × Nat)) : State :=
  sendMailbox s 3 (usedTo s s.spr.heldUse) (leBytes 8 step ++ missing.flatMap fun x => BitVec.ofNat 8 x.1 :: leBytes 2 x.2)

/-- The last block of a step has come: with nothing erased, HELD is written and the step acknowledged; otherwise the shards with an
erased block are named, which the sender sends again (R328). -/
def endReflection (s : State) (step : Nat) : State :=
  let missing := (s.spr.erased.filter fun x => x.2.2 == step).map fun x => (x.1, x.2.1)
  let s := { s with spr := { s.spr with erased := [], received := [], whole := [] } }
  if missing.isEmpty then
    let s := forEach (List.range 20) (fun s n =>
      match reflectionRegion s n with | some q => writeBytes s (q.base + 32) (leBytes 8 step) | none => s) s
    sendReflectAck { s with spr := { s.spr with held := step } } step []
  else sendReflectAck s step missing

/-- Applies a decoded block of the reflection. -/
def applyPiece (s : State) (r : Region) (d : ReflectPiece) (bs : List Byte) : State :=
  let pa := heldAddr r d.off
  writeBytes s pa (if d.diff then (bs.zip (readBytes s pa bs.length)).map fun x => x.1 ^^^ x.2 else bs)

/-- A shard with an erased block in this step. -/
def erasedShard (s : State) (d : ReflectPiece) : Bool := s.spr.erased.contains (d.stack, d.shard, d.step)

/-- A decoded block leaves the region; a region that is too small has ended the run when the session opened (R426). -/
def leavesRegion (r : Region) (d : ReflectPiece) (x : Except Erasure (List Byte)) : Bool :=
  match x with
  | .ok bs => decide (heldAddr r d.off + bs.length > r.base + r.length)
  | .error _ => false

/-- A shard has an erased block: its acknowledgement is withheld (R328). -/
def eraseShard (s : State) (d : ReflectPiece) : State :=
  if erasedShard s d then s else { s with spr := { s.spr with erased := s.spr.erased ++ [(d.stack, d.shard, d.step)] } }

/-- A difference of a shard whose tag names no step: a word of it was lost, and it is to come in full (R429). -/
def staleDifference (s : State) (r : Region) (d : ReflectPiece) : Bool := d.diff && tagOf s r d.shard == noStep

/-- Blocks received of a shard. -/
def receivedOf (s : State) (n k : Nat) : List (Nat × Nat × Nat) := s.spr.received.filter fun x => x.1 == n && x.2.1 == k

/-- A block of a shard has been received, in whatever order the ports bring them: with its last one a shard with nothing erased takes its
tag, and with the last shard the reflection ends (R428). -/
def countPiece (s : State) (r : Region) (d : ReflectPiece) : State :=
  let got := (d.stack, d.shard, d.off)
  let s := { s with spr := { s.spr with received := s.spr.received.filter (· != got) ++ [got] } }
  if (receivedOf s d.stack d.shard).length < d.blocks then s
  else
    let s := { s with spr := { s.spr with
      received := s.spr.received.filter fun x => !(x.1 == d.stack && x.2.1 == d.shard)
      whole := s.spr.whole.filter (· != (d.stack, d.shard)) ++ [(d.stack, d.shard)] } }
    let s := if d.shard = recordShard ∨ erasedShard s d = true then s else writeTag s r d.shard d.step
    if s.spr.whole.length < d.shards then s else endReflection s d.step

/-- REFLECTION_DATA (R428): the holder applies a block, and ends a shard and the step with their last blocks. Of an erased block nothing
is applied, and its shard is not acknowledged (R328). -/
def execReflectionData (d : ReflectPiece) (s : State) : Out :=
  guarded (.reflectionData d) s fun s =>
    match reflectionRegion s d.stack with
    | none => s
    | some r =>
      let h := readHead (d.block.take 16)
      let x := decodeBlock s h d.block.length (d.block.drop 16)
      if leavesRegion r d x then s
      else
        let s :=
          match x with
          | .ok bs => if staleDifference s r d then eraseShard s d else applyPiece s r d bs
          | .error e => eraseShard (countErasure s 2 d.stack h e) d
        countPiece s r d

/-- REFLECT_ACK (R428): the buddy holds the step, and REFLECT ends; or it names shards with an erased block, which are sent again
(R328). A failure that waited for REFLECT leads to NEEDS_REPAIR (R419). -/
def execReflectAck (a : ReflectAck) (s : State) : Out :=
  guarded (.reflectAck a) s fun s =>
    if runInProgress s && s.run.phase == 4 && s.run.commitDone && a.step == s.run.step then
      if !a.missing.isEmpty then resendShards s a.missing
      else
        let s := { s with run := { s.run with reflectDone := true }, spr := { s.spr with reflected := a.step, reflect := .difference } }
        match s.spr.repairAfterReflect with
        | some res => enterRepair s res
        | none => s
    else s

/-! ### Restores (R430) -/

/-- Groups of a tensor in a held reflection: masters, m, r, anchor, u, row factors. The holder knows the sender's layout by its
own update program (log 29). -/
def heldGroups (s : State) (r : Region) (prog : List TensorDesc) (k : Nat) (t : TensorDesc) (first count : Nat) : List Byte :=
  let lo := 4096 * first
  let n := Nat.min (4096 * count) (t.n - lo)
  let at' (off : Nat) : Nat := heldAddr r (tensorOffset prog k + off)
  readBytes s (at' (4 * lo)) (4 * n) ++ readBytes s (at' (4 * t.n + lo)) n ++ readBytes s (at' (5 * t.n + lo)) n ++
  readBytes s (at' (6 * t.n + 4 * lo)) (4 * n) ++ readBytes s (at' (10 * t.n + lo)) n ++
  readBytes s (at' (11 * t.n + 12 * (lo / 256))) (12 * (n / 256))

/-- Used ports towards the neighbour of a port. -/
def backTo (s : State) (port : Nat) : List Nat := match (s.port port).nbr with | some i => usedTo s i.serial | none => []

/-- FETCH_REQUEST (R430): the holder answers from its reflection, with the tag of the shard, by which the sender knows whether it can be
read. Of a group past the tensor the answer carries nothing (log 76). -/
def execFetchRequest (port stack tensor first count : Nat) (s : State) : Out :=
  guarded (.fetchRequest port stack tensor first count) s fun s =>
    match reflectionRegion s stack, (programOf s stack)[tensor]? with
    | some r, some t =>
      let groups :=
        if heldMagic s r && decide (4096 * first < t.n) then heldGroups s r (programOf s stack) tensor t first count else []
      sendMailbox s 5 (backTo s port)
        ([BitVec.ofNat 8 stack] ++ leBytes 4 tensor ++ leBytes 4 first ++ leBytes 8 (tagOf s r t.shard) ++ groups)
    | _, _ => s

/-- FETCH_DATA (R243, R430): groups restored from the buddy's reflection: the committed masters and the state in place. An answer
without groups, or of a shard whose tag is not the last committed step, cannot be read, as where the holder is lost. -/
def execFetchData (stack tensor first : Nat) (image : ShardImage) (s : State) : Out :=
  guarded (.fetchData stack tensor first image) s fun s =>
    if !s.spr.fetches.contains (stack, tensor, first) then s
    else if image.masters.isEmpty || some image.tag != s.run.committed then loseHolder s
    else
      match (programOf s stack)[tensor]? with
      | none => s
      | some t =>
        let lo := 4096 * first
        let room := t.n - lo
        let s := writeBytes s (masterAddr stack t (bankOf s stack) lo) (image.masters.take (4 * room))
        let s := writeBytes s (mAddr stack t lo) (image.m.take room)
        let s := writeBytes s (rAddr stack t lo) (image.r.take room)
        let s := writeBytes s (anchorAddr stack t lo) (image.anchor.take (4 * room))
        let s := writeBytes s (uAddr stack t lo) (image.u.take room)
        let s := writeBytes s (factorAddr stack t (lo / 256) 0) (image.factors.take (12 * (room / 256)))
        let left := s.spr.fetches.filter fun x => x != (stack, tensor, first)
        let s := { s with spr := { s.spr with fetches := left } }
        if left.any fun x => x.1 == stack then s else s.modUnit stack fun u => { u with restoring := false }

end Sys2Proof.Machine
end

