-- ==== Sys2Proof/Machine/Steps.lean ====
section
/-!
DEFINITION. Phases and steps (R23 to R25, R261 to R266, R274 to R277): the end of a phase, the drain, the start of the next
phase, the loss-scale decision (R65), the step boundary (R413), and the rerun of a tainted step (R66, R303).
-/
namespace Sys2Proof.Machine

/-! ### Phases -/

/-- The block of a phase in the table that the run uses. -/
def phaseBlock (s : State) (p : Plan) (k : Nat) : Option PhaseBlock := (if s.run.fallback then p.fall else p.main)[k]?

/-- Bits of the four words of an epilogue set that are not reserved (R127). -/
def epiMask : Nat → W32
  | 0 => 0x00007FFF
  | 1 => 0x07FFFFFF
  | 2 => 0x00FFFFFF
  | _ => 0x00007FFF

/-- Loads the eight epilogue sets from an image of 128 bytes (R128, R261). -/
def loadEpilogues (x : Core) (img : List Byte) : Core :=
  (List.range 32).foldl
    (fun x k => { x with epi := tput x.epi k (BitVec.ofNat 32 (leNat ((img.drop (4 * k)).take 4)) &&& epiMask (k % 4)) }) x

/-- A core at the start of a phase: its epilogue sets are loaded, in a phase that the step passes over too; PC set, not ended, no loop
open (R128, R263). -/
def startCore (b : PhaseBlock) (on : Bool) (c : Nat) (x : Core) : Core :=
  let idleCore := { x with active := false, ended := false }
  match b.cores[c]? with
  | some e =>
    if e.active then
      let x := loadEpilogues x (b.epilogues.getD c [])
      if on then
        { x with pc := e.pc, active := true, ended := false, endCause := e.endCause, loops := [], branches := [],
                 waiting := none, waited := false, bun := none }
      else { x with active := false, ended := false }
    else idleCore
  | none => idleCore

/-- The step runs EXCHANGE; EVAL (R263, R274). -/
def hasExchange (s : State) (p : Plan) : Bool := p.h != 0 && s.run.step % p.h == 0
def hasEval (s : State) (p : Plan) : Bool := p.e != 0 && s.glb.evalEn && s.run.step % p.e == 0

/-- A phase that the step passes over. -/
def omitted (s : State) (p : Plan) (k : Nat) : Bool := (k == 5 && !hasExchange s p) || (k == 6 && !hasEval s p)

/-- Every core's PC, activity and epilogue sets for a phase. -/
def loadPhase (s : State) (p : Plan) (k : Nat) : State :=
  let b := (phaseBlock s p k).getD { cores := [], epilogues := [] }
  forEach (List.range 480) (fun s c => s.modCore c (startCore b (!omitted s p k) c)) s

/-- The update units start: each loads its sets, and P1, P2 and APPLIED advance where the inner update is not skipped (R234, R240,
R241). -/
def startUpdate (s : State) (p : Plan) : State :=
  let row := hpRow p s.run.step
  forEach (List.range 20) (fun s n => s.modUnit n fun u =>
    let u := u.loadSets row
    { (if s.run.skip then u else u.advanceSets) with busy := true, done := false }) s

/-- Enters phase k. The values at the start of an evaluation slot are what its rerun takes again (R277). -/
def enterPhase (s : State) (p : Plan) (k : Nat) : State :=
  let s := loadPhase { s with run := { s.run with phase := k, drainSent := false, switchMet := false } } p k
  match k with
  | 2 => startUpdate s p
  | 3 => tryCommit s
  | 4 => startReflect s
  | 5 => if (sendRound s).isNone then { s with run := { s.run with exchangeDone := true } } else s
  | 6 => { s with run := { s.run with start := some (savedOf s) } }
  | _ => s

/-- The phase's own condition (R262). -/
def ownCondition (s : State) (p : Plan) : Bool :=
  match s.run.phase with
  | 2 => (List.range 20).all fun n => (s.unit n).done
  | 3 => s.run.commitDone
  | 4 => s.run.reflectDone
  | 5 => omitted s p 5 || s.run.exchangeDone
  | _ => true

/-- A phase has ended on this device (R262). -/
def phaseEnded (s : State) (p : Plan) : Bool :=
  (s.cores.all fun e => !e.2.active || e.2.ended) &&
  (s.clusters.all fun e => e.2.engines.all fun x => x.2.lists.isEmpty) && ownCondition s p

/-- The run ends with this step (R31, R400). -/
def stopsHere (s : State) : Bool :=
  s.run.stepsLeft == some 1 || (match s.run.stopAt with | some k => decide (k ≤ s.run.step) | none => false)

/-- The drain of a phase: DRAIN received and ours acknowledged on every used port (R24). -/
def drained (s : State) : Bool :=
  let key := drainKey s.run.step s.run.attempt s.run.phase
  (usedPorts s).all fun n => (s.port n).drainIn.contains key && (s.port n).drainAck.contains key

/-- Every used port is UP: the phase switch waits for it (R304). -/
def usedUp (s : State) : Bool := (usedPorts s).all fun n => (s.port n).state == 4

/-- UPDATE does not start before the formation of the round that the step has closed is done (R338). -/
def mayEnter (s : State) : Bool := s.run.phase != 1 || s.ful.closed.isNone || s.ful.ready

/-- Sends DRAIN once on every used port. Receive lanes that have fallen due move during the drain before COMPUTE (R291, R413). -/
def sendDrains (s : State) : State :=
  if s.run.drainSent then s
  else
    let s := forEach (usedPorts s) (fun s n => sendCtrl s n 1 0 s.run.phase) { s with run := { s.run with drainSent := true } }
    if s.run.phase = 6 ∧ !stopsHere s then forEach ((readySwaps s).filter fun r => resClass r == 11) makeSwap s else s

/-! ### The end of REDUCE (R25, R64, R65) -/

/-- The new EXP and CLEAN_COUNT, and whether the update is skipped. -/
def scaleDecision (g : Glb) : Nat × Nat × Bool :=
  let exp := signedOf 8 g.lsExp
  if g.lsOvf then (if exp > -14 then (g.lsExp + 255) % 256 else g.lsExp, 0, true)
  else if g.lsInterval ≠ 0 ∧ g.lsClean + 1 = g.lsInterval then (if exp < 24 then (g.lsExp + 1) % 256 else g.lsExp, 0, false)
  else (g.lsExp, Nat.min 32767 (g.lsClean + 1), false)

def decideScale (s : State) : State :=
  let d := scaleDecision s.glb
  { s with glb := { s.glb with lsExp := d.1, lsClean := d.2.1 }, run := { s.run with skip := d.2.2 } }

/-! ### Steps -/

/-- The start of COMPUTE in an attempt of a step: what belongs to the attempt begins again; in a rerun the digests of the attempt
abandoned are forgotten (R432). -/
def startAttempt (s : State) (p : Plan) : State :=
  let s := { s with
    glb := { s.glb with lsOvf := false }
    run := { s.run with stepExp := s.glb.lsExp, skip := false, tainted := false, abandoned := false, asReset := false, drainSent := false,
                        commitDone := false, reflectDone := false, exchangeDone := false }
    clusters := s.clusters.map fun e => (e.1, { e.2 with faultThisStep := false })
    upd := s.upd.map fun e => (e.1, { e.2 with busy := false, restoring := false, done := false, wrote := false, lastGroup := none })
    spr := { s.spr with digests := s.spr.digests.filter (fun d => decide (s.run.step + b2n (s.run.attempt != 0) ≤ d.step)), settled := [], copiesDue := [],
                        differing := false } }
  let s := forEach (List.range 480) (fun s c => s.modCore c fun x => { x with steps := satInc 0xFFFFFFFF x.steps }) s
  enterPhase (closeRound s) p 0

/-- Drains of earlier steps are forgotten. -/
def forgetDrains (s : State) : State :=
  let keep := fun (k : Nat) => k / 128 == s.run.step % 65536
  { s with link := s.link.map fun e => (e.1, { e.2 with drainIn := e.2.drainIn.filter keep, drainAck := e.2.drainAck.filter keep }) }

/-- The run has ended, or ends when RESUME arrives. -/
def runLost (s : State) : Bool := !runInProgress s || s.run.ending

/-- The values that the step starts from are kept for a rerun; nothing of the step has been done, and nothing taints it. -/
def openStep (s : State) : State :=
  { s with run := { s.run with
      start := some (savedOf s), phase := 7, attempt := 0, tainted := false, abandoned := false, drainSent := false, commitDone := false
      reflectDone := false, exchangeDone := false } }

/-- A step starts: swaps that have fallen due are made and lost words restored. While the buddy has still to answer for a lost word,
the step has not begun: PHASE_START tries again (R214); a step that a swap taints (R416) begins with its rerun. -/
def startStep (s : State) (p : Plan) : State :=
  let s := restoreLost (makeSwaps (openStep s))
  if runLost s || s.run.tainted || !s.spr.fetches.isEmpty then s else startAttempt (forgetDrains s) p

/-- The end of an evaluation slot: SLOTS, and the evaluation cursor (R259, R277). -/
def endEval (s : State) (p : Plan) : State :=
  if omitted s p 6 then s
  else
    let s := { s with glb := { s.glb with evalSlots := satInc 0xFFFF s.glb.evalSlots }, run := { s.run with evalStep := some s.run.step } }
    match p.ingEval with
    | none => s
    | some k =>
      match p.streams[k]? with
      | none => s
      | some e => s.modStream k fun x =>
          let c := x.cursor + e.per
          { x with cursor := c, landed := x.landed.filter fun r => decide (c ≤ r), noted := Nat.max x.noted c
                   reads := x.reads.filter fun r => decide (c ≤ r.record) }

/-- The end of a step's last phase. -/
def endStep (s : State) (p : Plan) : State :=
  let s := endEval s p
  if stopsHere s then closeRun s
  else startStep { s with run := { s.run with step := s.run.step + 1, stepsLeft := s.run.stepsLeft.map (· - 1) } } p

/-- The switch to the next phase (R263). -/
def switchPhase (s : State) (p : Plan) : State :=
  match s.run.phase with
  | 7 => startStep s p
  | 6 => endStep s p
  | 1 => enterPhase (decideScale s) p 2
  | k => enterPhase s p (k + 1)

/-- Some PLL of a domain is out of lock. -/
def anyUnlocked (s : State) (d : PllDomain) : Bool := s.pwr.unlocked.any fun x => x.1 == d

/-- The next switch ends the run: it is made in RUNNING only (R31). -/
def endsRun (s : State) : Bool := s.run.phase == 6 && stopsHere s

/-- A switch or a commit that QUIESCE met and that completes before parking: the phase had ended (R266), or every unit has reported
done (R243). -/
def switchOpen (s : State) (p : Plan) : Bool :=
  runInProgress s && !s.run.abandoned && !s.run.ending && !endsRun s &&
  (((s.run.drainSent || s.run.switchMet) && s.run.phase != 7) || (s.run.phase == 2 && phaseEnded s p) || (s.run.phase == 3 && !s.run.commitDone))

/-- Phases switch: RUNNING, or QUIESCED from it while a switch that QUIESCE met is still to complete (R243, R266); no dip is on (R476), and
Mortar is clocked and not in reset. -/
def phasesRun (s : State) (p : Plan) : Bool :=
  runInProgress s && (s.glb.state == .running || (s.isx.parking && switchOpen s p)) && !s.run.abandoned && !s.run.ending &&
  !s.pwr.dip && !s.inReset 3 && !anyUnlocked s .mortar

/-- PHASE_START (R263). -/
def execPhaseStart (s : State) : Out :=
  guarded .phaseStart s fun s =>
    match s.run.plan with
    | none => s
    | some p =>
      if !phasesRun s p || !usedUp s then s
      else if s.run.phase = 7 then switchPhase s p
      else if !phaseEnded s p then s
      else
        let s := sendDrains s
        if drained s && mayEnter s then switchPhase s p else s

/-! ### Reruns -/

/-- The cause of a taint has ended: no reset of COMPUTE, UPDATE or FABRIC, no dip, PLLs locked, restores made (R39, R243,
R303, R476, R485), and every core at a bundle boundary; restores of lost words are asked for and waited on besides. -/
def rerunReady (s : State) : Bool :=
  s.glb.state == .running && s.run.tainted && !s.run.ending && !s.inReset 1 && !s.inReset 2 && !s.inReset 3 && !s.pwr.dip &&
  !anyUnlocked s .compute && !anyUnlocked s .mortar && !anyUnlocked s .stackLogic && s.cores.all fun e => e.2.bun.isNone

/-- What the abandoned attempt held on cores and engines, their token counters and chain buffers included, is cleared (R125,
R303). -/
def clearAttempt (s : State) : State :=
  { s with
    cores := s.cores.map fun e => (e.1, { e.2.stopped with rf := { e.2.rf with t := [] }, chain := [], bun := none, flight := [] })
    clusters := s.clusters.map fun e =>
      (e.1, { e.2 with engines := e.2.engines.map fun x => (x.1, { x.2.emptied with tokens := [] }) })
    ing := s.ing.map fun e => (e.1, { e.2 with landed := [], noted := e.2.cursor, reads := [] }) }

/-- STEP_RERUN (R66, R277, R303): the step starts again from COMPUTE, which RERUNS counts and event 7 reports, or the evaluation
slot from its start; after a parity loss as after a reset of COMPUTE (R135, R212). The switch into COMPUTE makes the swaps that are due (R413). -/
def execStepRerun (s : State) : Out :=
  guarded .stepRerun s fun s =>
    match s.run.plan with
    | none => s
    | some p =>
      if !rerunReady s then s
      else
        let eval := s.run.phase == 6
        let s := restoreLost (if eval then s else makeSwaps s)
        if runLost s || !s.spr.fetches.isEmpty || s.inReset 3 then s
        else
        let s := restoreStart (clearAttempt (if s.run.asReset then resetCompute s else s))
        let s := { s with run := { s.run with attempt := s.run.attempt + 1 } }
        let s := if eval then s else raiseOpen { s with glb := { s.glb with reruns := satInc 0xFFFF s.glb.reruns } } 7
        let s := if eval then enterPhase { s with run := { s.run with tainted := false, abandoned := false, asReset := false } } p 6 else startAttempt s p
        acceptHeld s

end Sys2Proof.Machine
end

