-- ==== Sys2Proof/Machine/Keys.lean ====
section
/-!
DEFINITION. Root keys and identity (R362 to R367, R450, R463): ID_CERT, ID_KEM, ROOT_PROVISION and its unwrap, the alarms of
R382 to R385, and the known-answer tests of R379.
-/
namespace Sys2Proof.Machine

/-! ### Keys from the fused secret (R363, R450) -/

/-- A key of USE 0x05 to 0x07 from the fused secret. -/
def fusedKey (use epoch : Nat) : List Byte := kdf (beBytes 32 Config.fusedSecret.toNat) { KdfLabel.plain use Config.serial with epoch := epoch }

def identityPublic : List Byte := dsaPublic (fusedKey 6 0)
def identitySign (ctx : String) (msg : List Byte) : List Byte :=
  dsaSign (fusedKey 6 0) (ascii ctx) msg (beBytes 32 (Config.signRandom (ascii ctx) msg).toNat)
def kemPublicKey : List Byte := kemPublic (fusedKey 7 0)

/-- The key that seals the owner root key: EPOCH is the SEQ of the KEY_ID record. -/
def sealKey (seq : Nat) : List Byte := fusedKey 5 seq

/-- A nonce of twelve zero bytes. -/
def zeroNonce : List Byte := List.replicate 12 0

/-- `n` little-endian words of a byte string. -/
def leWordsOf (n : Nat) (bs : List Byte) : List Nat := (List.range n).map fun k => leNat ((bs.drop (4 * k)).take 4)

/-- The sealed copy of the owner root key in the store, opened; none where it does not open (R450). -/
def unsealOwner (s : State) : Option RootKey :=
  let id := pstValue s ixOwner
  let ws := (List.range 12).flatMap fun k => leBytes 4 (pstValue s (ixOwner + 1 + k))
  if id = 0 then none
  else (gcmOpen (sealKey (pstSeq s ixOwner)) zeroNonce (leBytes 4 id) (ws.take 32) (ws.drop 32)).map fun k => { id := id, key := k }

/-- The identity and KEM pairs are formed from three seeds of the unit of IOD0 (R363). -/
def formPairs (s : State) : State := countDerived { s with keys := { s.keys with identity := true, kem := true } } 0 3

/-- The sealed owner root key is opened: one derivation, and a tag that may fail (R381, R450). -/
def loadOwner (s : State) : State :=
  let k := unsealOwner s
  let s := if pstValue s ixOwner = 0 then s else countDerived (if k.isNone then countTagFail s 0 else s) 0 1
  { s with keys := { s.keys with owner := k } }

/-! ### ID_CERT and ID_KEM (R400, R463) -/

/-- Bytes 0 to 1,351 of the identity certificate, and the certificate. -/
def certBody : List Byte :=
  beBytes 2 1 ++ beBytes 2 3772 ++ beBytes 16 Config.serial.toNat ++
  ascii (if Config.engineering then "MQ840-E0" else "MQ840-L0") ++ beBytes 4 Config.certIssuer.toNat ++
  beBytes 8 Config.certIssued.toNat ++ identityPublic
def identityCert : List Byte := certBody ++ (List.range 2420).map Config.certSignature

/-- The signed KEM public key. -/
def kemBody : List Byte := beBytes 2 2 ++ beBytes 2 3624 ++ beBytes 16 Config.serial.toNat ++ kemPublicKey
def signedKem : List Byte := kemBody ++ identitySign "MQ840-KEM" kemBody

/-- A command that the sessionless contexts accept too. -/
def idCmd (opcode : Nat) : HostCmd := anyState opcode 8 fun p => be p 0 2 == 0 && resv0 p 2 6

/-- An identity command is answered BUSY while the pairs are regenerated (R383). -/
def replyIdentity (s : State) (e : Env) (obj : List Byte) : State :=
  if s.keys.identity && s.keys.kem then reply s e stOk (beBytes 2 1 ++ obj) else reply s e stBusy []

def doIdCert (e : Env) (p : List Byte) (s : State) : State :=
  receive (.idCert e p) e p (idCmd 0x90) (fun s => replyIdentity s e identityCert) s
def execIdCert (e : Env) (p : List Byte) (s : State) : Out := hostCommand (.idCert e p) e s (doIdCert e p)

def doIdKem (e : Env) (p : List Byte) (s : State) : State :=
  receive (.idKem e p) e p (idCmd 0x91) (fun s => replyIdentity s e signedKem) s
def execIdKem (e : Env) (p : List Byte) (s : State) : Out := hostCommand (.idKem e p) e s (doIdKem e p)

/-! ### ROOT_PROVISION (R364 to R367) -/

def blobTarget (p : List Byte) : Nat := be p 1 1
def blobId (p : List Byte) : Nat := be p 4 4

/-- The slot that the blob targets holds its KEY_ID already (R395). -/
def alreadyHeld (s : State) (p : List Byte) : Bool :=
  match (if blobTarget p = 0 then s.keys.owner else s.keys.cur) with
  | some k => k.id == blobId p
  | none => false

/-- The root key of a blob, where its tag verifies (R365). -/
def unwrap (p : List Byte) : Option (List Byte) :=
  let ss := kemDecaps (fusedKey 7 0) (fusedKey 7 1) ((p.drop 8).take 1088)
  let key := kdf ss { KdfLabel.plain 4 Config.serial with ctxA := blobTarget p, saltA := BitVec.ofNat 64 (blobId p) }
  gcmOpen key zeroNonce (p.take 8) ((p.drop 1096).take 32) ((p.drop 1128).take 16)

/-- Where a blob is accepted (R366): outside any session a first owner root key, and in a session of the current owner root key any. -/
def mayProvision (s : State) (e : Env) (p : List Byte) : Bool :=
  if isSessionless e.context then blobTarget p == 0 && s.keys.owner.isNone
  else s.keys.owner.isSome && (s.session e.context).root == s.keys.owner

/-- ROOT_PROVISION (long). A repeated one is answered OK wherever it comes from (R395, log 61). -/
def rootCmd : HostCmd := anyState 0x92 1144 fun p => be p 0 1 == 1 && decide (blobTarget p ≤ 1 ∧ be p 2 2 = 0 ∧ blobId p ≠ 0)
def doRootProvision (e : Env) (p : List Byte) (s : State) : State :=
  receive (.rootProvision e p) e p rootCmd (fun s =>
    if alreadyHeld s p then reply s e stOk []
    else if !mayProvision s e p then reply s e stAuthFail []
    else if s.long.provision.isSome ∨ s.keys.kem = false ∨ s.inReset 6 = true then reply s e stBusy []
    else { s with long := { s.long with provision := some (e, p) } }) s
def execRootProvision (e : Env) (p : List Byte) (s : State) : Out := hostCommand (.rootProvision e p) e s (doRootProvision e p)

/-- The owner root key's records are on their way. -/
def sealing (s : State) : Bool := (s.pst.inFlight.toList ++ s.pst.queue ++ s.pst.waiting).any fun w => w.hook == .owner

/-- The new owner root key serves once its sealed copy is stored: the reply is sent, and the sessions of the old key become
FREE (R366). -/
def finishOwner (s : State) : State :=
  match s.long.provision with
  | none => s
  | some (e, p) =>
    match unwrap p with
    | none => s
    | some k =>
      let s := reply { s with long := { s.long with provision := none } } e stOk []
      retireSessions { s with keys := { s.keys with owner := some { id := blobId p, key := k } } }

/-- Seals the owner root key into its thirteen records (R450). -/
def sealOwner (s : State) (id : Nat) (k : List Byte) : State :=
  let s := countDerived s 0 1
  let seq := pstLatestSeq s ixOwner + 1
  let (ct, tag) := gcmSeal (sealKey seq) zeroNonce (leBytes 4 id) k
  let ws := id :: (leWordsOf 8 ct ++ leWordsOf 4 tag)
  let s := forEach (List.range 13) (fun s n => ownWrite s (ixOwner + n) (ws.getD n 0) (if n = 12 then .owner else .none)) s
  if sealing s then s else finishOwner s

/-- A job root key is accepted (R367). -/
def takeJobKey (s : State) (k : RootKey) : State :=
  let gone := s.keys.old
  let s := { s with keys := { s.keys with old := s.keys.cur, cur := some k } }
  let s := match gone with
    | some g => forEach ((s.fctx.filter fun e => e.2.root == some g).map (·.1)) (fun s c => fulFree s c false) s
    | none => s
  ownWriteIfNew s ixExchLocked 0 .none

/-- UNWRAP_DONE (R365 to R367). -/
def execUnwrapDone (s : State) : Out :=
  guardedBy true s fun s =>
    match s.long.provision with
    | none => s
    | some (e, p) =>
      if sealing s then s
      else
        let s := countDerived s 0 1
        match unwrap p with
        | none => reply (countTagFail { s with long := { s.long with provision := none } } 0) e stAuthFail []
        | some k =>
          if blobTarget p = 0 then sealOwner s (blobId p) k
          else reply (takeJobKey { s with long := { s.long with provision := none } } { id := blobId p, key := k }) e stOk []

/-! ### Alarms (R382 to R385) -/

/-- What every alarm erases; an unwrap or a quote that it meets is answered BUSY. -/
def alarmErases (s : State) : State :=
  let s :=
    match s.long.provision with
    | some (e, _) => if sealing s then s else reply { s with long := { s.long with provision := none } } e stBusy []
    | none => s
  let s :=
    match s.long.quote with
    | some (e, _) => reply { s with long := { s.long with quote := none } } e stBusy []
    | none => s
  eraseDerived { s with keys := { s.keys with identity := false, kem := false } }

/-- A minor alarm: the device state does not change (R383). In one tick with a major alarm it is that alarm's (R385). -/
def minorAlarm (s : State) (code : Nat) : State :=
  if s.keys.majorAt = some s.now then s
  else
    let s := alarmErases s
    raiseOpen { s with keys := { s.keys with
      minorAlarms := satInc 0xFFFF s.keys.minorAlarms, lastAlarm := code, minorAt := some s.now } } 5

/-- Minor alarms counted, without one of this tick, which becomes the major alarm's (R385). -/
def minorsBefore (s : State) : Nat := if s.keys.minorAt = some s.now then s.keys.minorAlarms - 1 else s.keys.minorAlarms

/-- MINOR_ALARM. -/
def execMinorAlarm (code : Nat) (s : State) : Out :=
  guarded (.minorAlarm code) s fun s => if s.glb.state = .cold then s else minorAlarm s code

/-- A major alarm (R384): the job root keys are erased too, the exchange is locked, and ALARM is entered; a run ends. A device that no
image runs stays in BOOTING (R458). -/
def majorAlarm (s : State) : State :=
  let s := alarmErases s
  let s := { s with keys := { s.keys with
    cur := none, old := none, lastAlarm := 8, minorAlarms := minorsBefore s, majorAt := some s.now, minorAt := none } }
  let s := fulFreeAll s false
  let s := if runInProgress s then finishRun s else s
  let s := ownWrite s ixExchLocked 1 .exchLocked
  let s := { s with glb := { s.glb with state := if s.fw.dead then s.glb.state else .alarm, prior := none }, lnk := { s.lnk with shared := false } }
  raiseOpen s 5

/-- MAJOR_ALARM. -/
def execMajorAlarm (s : State) : Out :=
  guarded .majorAlarm s fun s => if s.glb.state = .cold then s else majorAlarm s

/-- KEY_REGEN_DONE (R383): the identity and KEM pairs are back. -/
def execKeyRegenDone (s : State) : Out :=
  guarded .keyRegenDone s fun s =>
    if s.glb.state = .cold ∨ (s.keys.identity && s.keys.kem) = true then s else formPairs s

/-- CIPHER_KAT (R379, R434): a mismatch counts one event against the core; where two cores of a die fail within one second,
CIPHER is reset. -/
def execCipherKat (iod core : Nat) (ok : Bool) (s : State) : Out :=
  guarded (.cipherKat iod core ok) s fun s =>
    if ok ∨ s.glb.state = .cold then s
    else
      let both := (s.cipher iod).katFail.any fun e => e.1 != core && decide (s.now - e.2 < 100000000)
      let s := s.modCipher iod fun c => { c with katFail := tput c.katFail core s.now }
      let s := countEvent s (.cipherCore iod core)
      if both then ownReset s 6 else s

end Sys2Proof.Machine
end

