-- ==== Sys2Proof/Machine/StoreEvents.lean ====
section
/-!
DEFINITION. The persistent store at work (R443 to R449): the end of a write and what follows it, a write torn by loss of power, the
boot ROM's choice of records (R445, R446), and its own writes at boot (R457).
-/
namespace Sys2Proof.Machine

/-! ### PST_WRITE_DONE (R443, R449) -/

/-- A die store takes part in the check that ends: all working dies at first, then those that write again. -/
def checks (p : Pst) (die : Nat) : Bool :=
  let retrying := p.retry0 || p.retry1
  if die = 0 then (if retrying then p.retry0 else !p.lost0) else (if retrying then p.retry1 else !p.lost1)

/-- The record is read back on one die: a failed check writes it again, the third in a row loses the die. -/
def checkDie (s : State) (w : PstWrite) (die : Nat) (ok : Bool) : State :=
  let p := s.pst
  let seq := pstSeq s w.index + 1
  let fails := if ok then 0 else (if die = 0 then p.fails0 else p.fails1) + 1
  let lost := decide (3 ≤ fails)
  let phys := if ok then tput p.phys (physKey w.index die seq) (recordOf w.index w.value seq) else p.phys
  let p : Pst :=
    if die = 0 then { p with phys := phys, fails0 := fails, lost0 := p.lost0 || lost, retry0 := !ok && !lost }
    else { p with phys := phys, fails1 := fails, lost1 := p.lost1 || lost, retry1 := !ok && !lost }
  let s := { s with pst := p }
  if lost then raiseEvent s 2 (resDetail (resWord (.pstDie die)) 0) else s

/-- The replies that waited for a write leave. -/
def answerStore (s : State) (ticket : Nat) : State :=
  let now := s.long.store.filter fun r => r.ticket == ticket
  let s := { s with long := { s.long with store := s.long.store.filter fun r => r.ticket != ticket } }
  forEach now (fun s r => reply s r.env r.status r.params) s

/-- With both stores lost every reply that waits is NEEDS_REPAIR; that of a REG_WRITE gives the words before the first one that is not
stored (R400, R449). `left` are the tickets of the writes not made. -/
def answerLost (s : State) (left : List Nat) : State :=
  forEach s.long.store (fun s r =>
    reply s r.env stNeedsRepair
      (match r.words.find? fun w => left.contains w.1 with
        | some w => if r.env.opcode = 0x21 then beBytes 2 w.2 else []
        | none => [])) { s with long := { s.long with store := [] } }

/-- The confirm record is written: the image is confirmed and the anti-rollback counter follows (R460). -/
def confirmed (s : State) : State :=
  let s := { s with glb := { s.glb with imageConfirmed := true }, fw := { s.fw with trial := false, windowDone := true } }
  if pstLatest s ixRollback < s.fw.svn then ownWrite s ixRollback s.fw.svn .none else s

/-- The next hop that the store holds (R388, R412). -/
def storedHop (s : State) (p : Nat) : BitVec 48 :=
  BitVec.ofNat 48 (pstValue s (ixEth p 7) % 2 ^ 16 * 2 ^ 32 + pstValue s (ixEth p 6))

/-- The next hop of a port takes effect (R412). -/
def takeHop (s : State) (p : Nat) : State := s.modEther p fun x => { x with nextHop := storedHop s p }

/-- What a completed write does besides (R221, R366, R412, R413, R460). -/
def runHook (s : State) : PstHook → State
  | .none => s
  | .swap res =>
    swapsOutsideRun { s with spr := { s.spr with
      swaps := s.spr.swaps.map fun w => if w.res = res then { w with written := true } else w } }
  | .copyEnd res => raiseEvent s 8 (resDetail res 0)
  | .confirm => confirmed s
  | .exchLocked => s
  | .owner => finishOwner s
  | .nextHop p => takeHop s p

/-- A write has completed: the value is in service, replies leave, the next write starts. -/
def completeWrite (s : State) (w : PstWrite) : State :=
  let p := s.pst
  let s := { s with pst := { p with
    table := tput p.table w.index (w.value, pstSeq s w.index + 1), inFlight := none, retry0 := false, retry1 := false
    writes := satInc 0xFFFFFFFF p.writes } }
  startWrite (answerStore (runHook s w.hook) w.ticket)

/-- Both stores are lost: what waits is dropped, and the device needs repair (R449). -/
def storeLost (s : State) : State :=
  let left := (s.pst.inFlight.toList ++ s.pst.queue ++ s.pst.waiting).map (·.ticket)
  let s := { s with pst := { s.pst with inFlight := none, queue := [], waiting := [], retry0 := false, retry1 := false } }
  needsRepair (answerLost s left) (8 * 2 ^ 24 + 0x100)

/-- The store controller is clocked: by the I/O-die PLL, or by the reference clock where that stops (R443). -/
def storeClocked (s : State) : Bool :=
  s.pwr.refPresent || !(s.pwr.unlocked.contains (.ioDie, 0) || s.pwr.unlocked.contains (.ioDie, 1))

/-- The checks of both dies have been made. -/
def execPstWriteDone (ok0 ok1 : Bool) (s : State) : Out :=
  guarded (.pstWriteDone ok0 ok1) s fun s =>
    match s.pst.inFlight with
    | none => s
    | some w =>
      if !storeClocked s then s
      else
        let c1 := checks s.pst 1
        let s := if checks s.pst 0 then checkDie s w 0 ok0 else s
        let s := if c1 then checkDie s w 1 ok1 else s
        if pstDead s then storeLost s
        else if s.pst.retry0 || s.pst.retry1 then s
        else completeWrite s w

/-! ### A torn write (R443) -/

/-- The first `n` of INDEX, VALUE, CRC and SEQ have been written over a record. -/
def tornRecord (old new : PstRec) (n : Nat) : PstRec :=
  { index := if 1 ≤ n then new.index else old.index
    value := if 2 ≤ n then new.value else old.value
    crc := if 3 ≤ n then new.crc else old.crc
    seq := if 4 ≤ n then new.seq else old.seq }

/-- The write in flight stops part way on both dies, after so many fields of each. -/
def tearWrite (s : State) (n0 n1 : Nat) : State :=
  match s.pst.inFlight with
  | none => s
  | some w =>
    let seq := pstSeq s w.index + 1
    let one := fun (s : State) (die n : Nat) =>
      if (if die = 0 then s.pst.lost0 else s.pst.lost1) then s
      else
        let k := physKey w.index die seq
        { s with pst := { s.pst with phys := tput s.pst.phys k (tornRecord (physAt s k) (recordOf w.index w.value seq) n) } }
    let s := one (one s 0 n0) 1 n1
    { s with pst := { s.pst with inFlight := none, retry0 := false, retry1 := false } }

/-! ### The boot ROM (R445, R446) -/

/-- The four records of an index, IOD0's first. -/
def recordsOf (s : State) (ix : Nat) : List PstRec := (List.range 4).map fun k => physAt s (4 * ix + k)

/-- The record that a list of valid ones gives: the highest SEQ, and of equals the first. -/
def newestOf : List PstRec → Option PstRec
  | [] => none
  | r :: l =>
    match newestOf l with
    | none => some r
    | some b => if b.seq > r.seq then some b else some r

/-- The ROM writes the newest record again where a die lacks it. -/
def repairRecord (s : State) (ix : Nat) (r : PstRec) : State :=
  forEach [0, 1] (fun s die =>
    let k := physKey ix die r.seq
    let old := physAt s k
    if old.valid ix && old.seq == r.seq then s else { s with pst := { s.pst with phys := tput s.pst.phys k r } }) s

/-- The ROM chooses the value of one index. -/
def chooseRecord (s : State) (ix : Nat) : State :=
  let all := recordsOf s ix
  let bad := all.any fun r => !r.valid ix
  let s := if bad then { s with pst := { s.pst with torn := satInc 0xFFFF s.pst.torn } } else s
  match newestOf (all.filter fun r => r.valid ix) with
  | some r =>
    let s := repairRecord s ix r
    { s with pst := { s.pst with table := tput s.pst.table ix (r.value, r.seq) } }
  | none =>
    let top := (all.map (·.seq)).foldl Nat.max 0
    let s := { s with pst := { s.pst with
      table := tput s.pst.table ix (shippedOf ix, top), lostIdx := satInc 0xFFFF s.pst.lostIdx } }
    raiseEvent s 2 (recordDetail ix)

/-- The indices whose records are not all as shipped. -/
def writtenIndices (s : State) : List Nat := (s.pst.phys.map fun e => e.1 / 4).eraseDups

/-- The boot ROM reads every index; the records of the others are as shipped, valid and equal. -/
def chooseRecords (s : State) : State := forEach (writtenIndices s) chooseRecord s

/-- A write of the boot ROM, which has completed before the ROM goes on (R457); endurance holds for it (R447). DESIGN CHOICE (log 81): no
command says how the checks of the ROM's records end, and they pass (R449). -/
def romWrite (s : State) (ix value : Nat) : State :=
  if pstSeq s ix ≥ enduranceLimit then
    raiseEvent { s with pst := { s.pst with wornRefused := satInc 0xFFFF s.pst.wornRefused } } 2 (recordDetail ix)
  else
    let seq := pstSeq s ix + 1
    let r := recordOf ix value seq
    { s with pst := { s.pst with
      phys := tput (tput s.pst.phys (physKey ix 0 seq) r) (physKey ix 1 seq) r
      table := tput s.pst.table ix (value, seq), writes := satInc 0xFFFFFFFF s.pst.writes } }

end Sys2Proof.Machine
end

