-- ==== Sys2Proof/Machine/Image.lean ====
section
/-!
DEFINITION. The firmware flash, the checks of an image (R451 to R453, R458), and what loading one gives (R320, R457).
-/
namespace Sys2Proof.Machine

/-! ### The flash (R451) -/

def areaSize (area : Nat) : Nat := if area = 2 then 0x4000000 else 0xE000000

/-- What an unlisted byte of an area reads as. -/
def flashDefault (s : State) (area off : Nat) : Byte :=
  match tget 0 s.fw.base area with
  | 0 => Config.shippedFlash area off
  | 1 => 0xFF
  | k + 2 => Config.freeByte k off

def flashKey (area off : Nat) : Nat := area * 2 ^ 32 + off
def flashByte (s : State) (area off : Nat) : Byte := (cellFind s.fw.flash (flashKey area off)).getD (flashDefault s area off)
def flashBytes (s : State) (area off n : Nat) : List Byte := (List.range n).map fun i => flashByte s area (off + i)
def flashLe (s : State) (area off n : Nat) : Nat := leNat (flashBytes s area off n)

/-- Programming only clears bits: a byte becomes the AND of what it held and what is written (R455). -/
def programByte (s : State) (area off : Nat) (b : Byte) : State :=
  { s with fw := { s.fw with
    flash := cellPut (flashDefault s area off) s.fw.flash (flashKey area off) (flashByte s area off &&& b) } }
def programBytes (s : State) (area off : Nat) : List Byte → State
  | [] => s
  | b :: bs => programBytes (programByte s area off b) area (off + 1) bs

/-- Every byte of an area takes the default of a kind: 1 erased, n + 2 unspecified. -/
def fillArea (s : State) (area kind : Nat) : State :=
  { s with fw := { s.fw with flash := s.fw.flash.filter (fun e => e.1 / 2 ^ 32 != area), base := tput s.fw.base area kind } }

/-! ### The manifest (R452) -/

def manifestMagic : Nat := 0x4D414E46
/-- NPART, NGEN and NFEAT of an area's manifest. -/
def npart (s : State) (area : Nat) : Nat := flashLe s area 6 2
def ngen (s : State) (area : Nat) : Nat := flashLe s area 21 1
def nfeat (s : State) (area : Nat) : Nat := flashLe s area 22 2
def imageTotal (s : State) (area : Nat) : Nat := flashLe s area 24 8
def imageSvn (s : State) (area : Nat) : Nat := flashLe s area 12 4

/-- Offsets of the parts of the manifest, and its length. -/
def partEntry (k : Nat) : Nat := 1440 + 64 * k
def genEntry (s : State) (area k : Nat) : Nat := 1440 + 64 * npart s area + 8 * k
def featEntry (s : State) (area k : Nat) : Nat := 1440 + 64 * npart s area + 8 * ngen s area + 32 * k
def signatureAt (s : State) (area : Nat) : Nat := featEntry s area (nfeat s area)
def manifestSize (s : State) (area : Nat) : Nat := signatureAt s area + 2420
def manifestBytes (s : State) (area : Nat) : List Byte := flashBytes s area 0 (manifestSize s area)

def partType (s : State) (area k : Nat) : Nat := flashLe s area (partEntry k) 1
def partOffset (s : State) (area k : Nat) : Nat := flashLe s area (partEntry k + 8) 8
def partLength (s : State) (area k : Nat) : Nat := flashLe s area (partEntry k + 16) 8

/-- Bytes of an area that must be 0. -/
def flashZero (s : State) (area off n : Nat) : Bool := (flashBytes s area off n).all (· == 0)

/-! ### The checks of R458 -/

/-- Code 1: the header's ranges, reserved bytes, and the manifest within the slot. -/
def headerFits (s : State) (a : Nat) : Bool :=
  decide (flashLe s a 0 4 = manifestMagic ∧ flashLe s a 4 2 = 1 ∧ 8 ≤ npart s a ∧ npart s a ≤ 32 ∧ 1 ≤ ngen s a ∧ ngen s a ≤ 4 ∧
    nfeat s a ≤ 32 ∧ imageTotal s a ≤ 0xE000000 ∧ manifestSize s a ≤ imageTotal s a ∧ manifestSize s a ≤ areaSize a ∧
    flashLe s a 20 1 < 2) &&
  flashZero s a 32 96 &&
  ((List.range (npart s a)).all fun k => flashZero s a (partEntry k + 1) 3 && flashZero s a (partEntry k + 56) 8) &&
  ((List.range (ngen s a)).all fun k => flashZero s a (genEntry s a k + 4) 4) &&
  ((List.range (nfeat s a)).all fun k => flashZero s a (featEntry s a k + 1) 3)

/-- Code 2: the signer's key is one that the boot ROM holds. -/
def signerHeld (s : State) (a : Nat) : Bool :=
  let h := sha3 (flashBytes s a 128 1312)
  h == Config.prodKeyHash || (Config.engineering && h == Config.engKeyHash)

/-- Code 3: the signature over every manifest byte before it. -/
def signatureGood (s : State) (a : Nat) : Bool :=
  dsaVerify (flashBytes s a 128 1312) (ascii "MQ840-FW") (flashBytes s a 0 (signatureAt s a)) (flashBytes s a (signatureAt s a) 2420)

/-- The part that a generation entry names. -/
def genPart (s : State) (a k : Nat) : Nat := flashLe s a (genEntry s a k + 2) 2

/-- Code 6: part types (R453), each part within the slot and within TOTAL, aligned, and no two overlapping. -/
def partsGood (s : State) (a : Nat) : Bool :=
  let parts := List.range (npart s a)
  let count := fun (t : Nat) => (parts.filter fun k => partType s a k == t).length
  let gens := (List.range (ngen s a)).map (genPart s a)
  ([1, 2, 3, 4, 5, 6, 8].all fun t => count t == 1) && count 7 == ngen s a && parts.all (fun k => decide (1 ≤ partType s a k ∧ partType s a k ≤ 8)) &&
  gens.all (fun k => decide (k < npart s a) && partType s a k == 7) && gens.eraseDups.length == gens.length &&
  parts.all (fun k => decide (partOffset s a k % 4096 = 0 ∧ partOffset s a k + partLength s a k ≤ areaSize a ∧
    partOffset s a k + partLength s a k ≤ imageTotal s a)) &&
  parts.all (fun j => parts.all fun k => j == k || decide (partOffset s a j + partLength s a j ≤ partOffset s a k ∨
    partOffset s a k + partLength s a k ≤ partOffset s a j))

/-- Code 7: the digest of every part. -/
def digestsGood (s : State) (a : Nat) : Bool :=
  (List.range (npart s a)).all fun k =>
    sha3 (flashBytes s a (partOffset s a k) (partLength s a k)) == flashBytes s a (partEntry k + 24) 32

/-- The code of the first check of R458 that fails; 0: the image passes. -/
def imageReason (s : State) (a : Nat) : Nat :=
  if !headerFits s a then 1
  else if !signerHeld s a then 2
  else if !signatureGood s a then 3
  else if a ≠ 2 ∧ imageSvn s a < pstValue s ixRollback then 4
  else if flashLe s a 20 1 = 1 ∧ Config.engineering = false then 5
  else if !partsGood s a then 6
  else if !digestsGood s a then 7
  else 0

/-! ### Loading (R320, R457) -/

/-- A length array of 272 entries keeps to R320. -/
def lengthsOk (l : List Nat) : Bool :=
  l.length == 272 && l.all (fun n => decide (n ≤ 15)) && decide ((l.map fun n => if n = 0 then 0 else 2 ^ (15 - n)).sum ≤ 2 ^ 15)

/-- The generation of an entry, as its part gives it. -/
def genOf (s : State) (a k : Nat) : CodecGen :=
  { gen := flashLe s a (genEntry s a k) 1, fbit := flashLe s a (genEntry s a k + 1) 1
    lengths := Config.codecTables (flashBytes s a (partOffset s a (genPart s a k)) (partLength s a (genPart s a k))) }

/-- Inserts a generation in rising order of its number. -/
def insertGen (g : CodecGen) : List CodecGen → List CodecGen
  | [] => [g]
  | x :: l => if g.gen < x.gen then g :: x :: l else x :: insertGen g l

/-- A generation is checked, and held or reported (R320). -/
def checkGen (s : State) (g : CodecGen) : State :=
  if g.lengths.length == 13 && g.lengths.all lengthsOk then { s with fw := { s.fw with gens := insertGen g s.fw.gens } }
  else raiseEvent s 19 [BitVec.ofNat 8 g.gen, 0, 0, 0, 0, 0, 0, 0]

/-- Loads the selected image (order 5 of R457). -/
def loadImage (s : State) (a : Nat) (trial : Bool) : State :=
  let s := { s with fw := { s.fw with
    active := a, recovery := a == 2, trial := trial, dead := false, manifestDigest := sha3 (manifestBytes s a)
    major := flashLe s a 8 1, minor := flashLe s a 9 1, patch := flashLe s a 10 2, svn := imageSvn s a
    features := flashLe s a 16 4, gens := [] } }
  forEach ((List.range (ngen s a)).map (genOf s a)) checkGen s

end Sys2Proof.Machine
end

