-- ==== Sys2Proof/Machine/PlanImage.lean ====
section
/-!
DEFINITION. The plan image (R248 to R252): its header, directory and sections as plan space holds them, and the checks of a
commit by the reasons of R255 (R228, R229, R251, R256, R261, R265, R268, R275, R296, R340, R341, R406, R421, R423).
-/
namespace Sys2Proof.Machine

/-! ### Plan space -/

def planByte (s : State) (p : Nat) : Byte := readByte s (planAddr p)
def planBytes (s : State) (p n : Nat) : List Byte := (List.range n).map fun i => planByte s (p + i)
def planLe (s : State) (p n : Nat) : Nat := leNat (planBytes s p n)

/-- Bytes of plan space. -/
def planSpace : Nat := 0x140000000

/-- A little-endian field of a byte string. -/
def le (bs : List Byte) (i n : Nat) : Nat := leNat ((bs.drop i).take n)

/-- Every byte of a part of a byte string is 0. -/
def zeroAt (bs : List Byte) (i n : Nat) : Bool := ((bs.drop i).take n).all (· == 0)

/-- Two ranges share a byte. -/
def rangesMeet (a n b m : Nat) : Bool := decide (0 < n ∧ 0 < m ∧ a < b + m ∧ b < a + n)

/-- No two of a list of ranges share a byte. -/
def disjointAll : List (Nat × Nat) → Bool
  | [] => true
  | x :: r => r.all (fun y => !rangesMeet x.1 x.2 y.1 y.2) && disjointAll r

/-! ### Header and directory -/

/-- The 256 header bytes. -/
def planHeader (s : State) : List Byte := planBytes s 0 256

/-- A directory entry (R250); the 64-bit words as they stand. -/
structure Section where
  kind : Nat
  index : Nat
  offset : Nat
  length : Nat
  dest : Nat
  /-- A reserved part of the entry is not 0. -/
  bad : Bool
deriving DecidableEq, Repr

/-- Entry k of the directory. -/
def planSection (s : State) (k : Nat) : Section :=
  let e := planBytes s (256 + 32 * k) 32
  { kind := le e 0 1, index := le e 2 2, offset := le e 8 5, length := le e 16 5, dest := le e 24 7
    bad := !(zeroAt e 1 1 && zeroAt e 4 4 && zeroAt e 13 3 && zeroAt e 21 3 && zeroAt e 31 1) }

def planSections (s : State) : List Section := (List.range (le (planHeader s) 32 4)).map (planSection s)

/-- Reason 1 (R249): the header. NSECT is looked at first, since the directory is read by it. -/
def headerBad (s : State) : Bool :=
  let h := planHeader s
  let nsect := le h 32 4
  let dims := [le h 44 1, le h 45 1, le h 46 1]
  decide (le h 0 4 ≠ 0x504C414E ∨ le h 4 2 ≠ 1 ∨ nsect < 1 ∨ 1024 < nsect) ||
  decide (le h 24 8 ≠ 256 + 32 * nsect + ((planSections s).map (·.length)).foldl (· + ·) 0 ∨ 2 ^ 32 < le h 24 8) ||
  dims.any (fun d => decide (d < 1 ∨ 64 < d)) ||
  (bit (le h 47 1) 0 && !bit (le h 47 1) 1) || decide (bits (le h 47 1) 7 2 ≠ 0) ||
  !(zeroAt h 6 2 && zeroAt h 36 4 && zeroAt h 43 1 && zeroAt h 57 7 && zeroAt h 96 160)

/-- A COPY destination lies wholly within one region of R202 other than register space, and touches no plan region. -/
def copyDestOk (dest length : Nat) : Bool :=
  let last := dest + length - 1
  if length = 0 then true
  else
    match placeOf dest, placeOf last with
    | .fast a _, .fast b _ =>
      (List.range (b + 1 - a)).all fun k => !rangesMeet dest length (fastAddr (a + k) planBase) 0x10000000
    | .dense a _, .dense b _ => a == b
    | .cluster a _, .cluster b _ => a == b
    | .cache _ _, .cache _ _ => true
    | _, _ => false

/-- A section of a directory entry is placed as R250 and R251 say, by itself. -/
def sectionBad (nsect : Nat) (fbk : Bool) (x : Section) : Bool :=
  let stackOf := x.offset / 0x10000000
  let oneStack := x.length == 0 || (x.offset + x.length - 1) / 0x10000000 == stackOf
  x.bad || decide (x.offset % 64 ≠ 0) || decide (0x100000000 < x.length) || decide (planSpace < x.offset + x.length) ||
  rangesMeet 0 (256 + 32 * nsect) x.offset x.length || (x.kind != 1 && x.dest != 0) ||
  match x.kind with
  | 1 => !copyDestOk x.dest x.length
  | 2 => !(x.index == 0 || (x.index == 1 && fbk))
  | 3 => decide (6 < x.index)
  | 4 => decide (19 < x.index) || !oneStack || (x.length != 0 && stackOf != x.index)
  | 5 => x.index != 0 || !oneStack
  | 6 => x.index != 0
  | 7 => x.index != 0
  | 8 => x.index != 0
  | 9 => x.index != 0
  | _ => true

/-- The section of a kind and index. -/
def getSection (l : List Section) (kind index : Nat) : Option Section := l.find? fun x => x.kind == kind && x.index == index

/-- A section of a kind and index is present twice. -/
def doubled : List Section → Bool
  | [] => false
  | x :: r => (getSection r x.kind x.index).isSome || doubled r

/-- Required sections (R251). -/
def requiredSections (fbk : Bool) (h : Nat) : List (Nat × Nat) :=
  [(2, 0), (5, 0), (6, 0), (7, 0), (9, 0)] ++ (if fbk then [(2, 1)] else []) ++ (if h = 0 then [] else [(8, 0)]) ++
  (List.range 7).map (fun k => (3, k)) ++ (List.range 20).map fun k => (4, k)

/-- Reason 3. -/
def directoryBad (s : State) : Bool :=
  let h := planHeader s
  let l := planSections s
  let fbk := bit (le h 47 1) 1
  l.any (sectionBad l.length fbk) || doubled l || !disjointAll (l.map fun x => (x.offset, x.length)) ||
  (requiredSections fbk (le h 50 2)).any fun r => (getSection l r.1 r.2).isNone

/-- The digest of R252. -/
def planDigest (s : State) : List Byte :=
  let h := planHeader s
  let l := planSections s
  sha3 (h.take 64 ++ List.replicate 32 0 ++ h.drop 96 ++ planBytes s 256 (32 * l.length) ++
    l.flatMap fun x => planBytes s x.offset x.length)

/-! ### Sections as data -/

/-- Bytes of a required section. -/
def sectionBytes (s : State) (l : List Section) (kind index : Nat) : List Byte :=
  match getSection l kind index with
  | some x => planBytes s x.offset x.length
  | none => []

/-- A byte string cut into records of n bytes. -/
def records (n : Nat) (bs : List Byte) : List (List Byte) := (List.range (bs.length / n)).map fun k => (bs.drop (n * k)).take n

def tensorOf (d : List Byte) : TensorDesc :=
  { rows := le d 0 4, state := 4096 * le d 4 4, rule := bits (le d 8 1) 3 0, outer := bits (le d 8 1) 7 4,
    hpset := bits (le d 9 1) 2 0, gfmt := bits (le d 9 1) 5 3, wfmt := bits (le d 10 1) 2 0, dfmt := bits (le d 10 1) 3 3,
    shard := le d 12 2, grad := le d 16 7, gfact := BitVec.ofNat 32 (le d 24 4), work := le d 32 7, wscale := le d 40 7,
    delta := le d 48 7, localAddr := le d 56 7 }

def regionOf (d : List Byte) : Region := { base := le d 0 7, length := le d 8 8, kind := le d 16 1 }

def wireOf (d : List Byte) : WireEntry :=
  { use := le d 0 1, nport := le d 1 1, nserial := BitVec.ofNat 128 (beNat ((d.drop 4).take 16)) }

def routeOf (d : List Byte) : RouteEntry :=
  let v := le d 0 8
  { egress := bits v 5 0, isLocal := bit v 6, valid := bit v 7, next := bits v 23 8 }

def streamOf (d : List Byte) : StreamEntry :=
  { context := le d 0 2, lport := le d 2 2, sport := le d 4 2, kind := le d 6 1,
    saddr := BitVec.ofNat 128 (beNat ((d.drop 8).take 16)), object := BitVec.ofNat 64 (le d 24 8), rbytes := le d 32 4,
    per := le d 36 4, ring := le d 40 8, rslots := le d 48 4, noteCore := bits (le d 52 2) 8 0, noteTok := bits (le d 52 2) 14 9,
    orecs := le d 56 8, cookie := BitVec.ofNat 64 (le d 64 8) }

def coreEntryOf (d : List Byte) : CoreEntry :=
  let v := le d 0 4
  { pc := bits v 13 0, active := bit v 14, endCause := bits v 18 15 }

/-- Bytes of core entries and epilogue images of a phase block. -/
def blockBytes : Nat := 69120

/-- Offset of a phase's block within a phase table. -/
def blockOffset (t : List Byte) (phase : Nat) : Nat := le t (64 * phase) 8

def phaseBlockOf (t : List Byte) (phase : Nat) : PhaseBlock :=
  let b := (t.drop (blockOffset t phase)).take blockBytes
  { cores := (records 16 (b.take 7680)).map coreEntryOf, epilogues := records 128 (b.drop 7680) }

/-- The phase blocks of a table; EVAL is not decoded where E is 0 (R275). -/
def phaseTableOf (t : List Byte) (e : Nat) : List PhaseBlock :=
  (List.range 7).map fun k => if k = 6 ∧ e = 0 then { cores := [], epilogues := [] } else phaseBlockOf t k

def fulTensorOf (d : List Byte) : FulTensor :=
  { stack := le d 0 1, formIod := bits (le d 1 1) 0 0, tensor := le d 4 4, out := le d 8 8, outStride := le d 16 8, joinOff := le d 24 8 }
def fulPartnerOf (d : List Byte) : FulPartner :=
  { iod := bits (le d 0 1) 0 0, ubytes := le d 4 4, txBase := le d 8 8, txStride := le d 16 8, rxBase := le d 24 8, rxStride := le d 32 8 }
def fulPieceOf (d : List Byte) : FulPiece := { partner := le d 0 2, tentry := le d 4 4, first := le d 8 4, rows := le d 12 4 }

/-- Counts of a FUELLE section: partner slots, tensor entries, pieces. -/
def fulCounts (b : List Byte) : Nat × Nat × Nat := (le b 6 2, le b 8 4, le b 12 4)

/-- Bytes of tensor, partner and piece entries. -/
def fulParts (b : List Byte) : List (List Byte) × List (List Byte) × List (List Byte) :=
  let (np, nt, nx) := fulCounts b
  (records 32 ((b.drop 64).take (32 * nt)), records 48 ((b.drop (64 + 32 * nt)).take (48 * np)),
    records 16 ((b.drop (64 + 32 * nt + 48 * np)).take (16 * nx)))

def fulSchedOf (b : List Byte) : FulSched :=
  let (ts, ps, xs) := fulParts b
  { g := le b 0 2, s := bits (le b 2 1) 3 0, decay := bits (le b 3 1) 1 0, odepth := le b 4 1, rdepth := le b 5 1,
    selfW := BitVec.ofNat 32 (le b 16 4), schedId := BitVec.ofNat 32 (le b 20 4), rxStage := le b 24 8, joinBase := le b 32 8,
    tensors := ts.map fulTensorOf, partners := ps.map fulPartnerOf, pieces := xs.map fulPieceOf }

/-- The plan that an image gives. With H = 0 a FUELLE section is not decoded. -/
def planOf (s : State) : Plan :=
  let h := planHeader s
  let l := planSections s
  let e := le h 48 2
  let fbk := bit (le h 47 1) 1
  let ing := sectionBytes s l 9 0
  { gen := le h 8 4, features := le h 12 4, seed := le h 16 8, pos := (le h 40 1, le h 41 1, le h 42 1)
    dims := (le h 44 1, le h 45 1, le h 46 1), vdef := le h 47 1 % 2, fbk := fbk, e := e, h := le h 50 2, p := le h 52 1
    v := le h 53 1, m := le h 54 2, ring := le h 56 1, digest := (h.drop 64).take 32
    copies := (l.filter fun x => x.kind == 1).map fun x => { offset := x.offset, length := x.length, dest := x.dest }
    main := phaseTableOf (sectionBytes s l 2 0) e
    fall := if fbk then phaseTableOf (sectionBytes s l 2 1) e else []
    routes := (List.range 7).map fun k => (records 8 (sectionBytes s l 3 k)).map routeOf
    update := (List.range 20).map fun k => (records 64 (sectionBytes s l 4 k)).map tensorOf
    hpsched := (records 224 (sectionBytes s l 5 0)).map fun r => (records 4 r).map fun w => BitVec.ofNat 32 (leNat w)
    regions := (records 32 (sectionBytes s l 6 0)).map regionOf
    part := le (sectionBytes s l 7 0) 0 4, bmask := bits (le (sectionBytes s l 7 0) 4 1) 3 0
    wires := (records 32 ((sectionBytes s l 7 0).drop 32)).map wireOf
    fuelle := if le h 50 2 = 0 then none else some (fulSchedOf (sectionBytes s l 8 0))
    ingEval := if le ing 2 2 = 0xFFFF then none else some (le ing 2 2)
    streams := (records 80 (ing.drop 32)).map streamOf }

/-! ### Reason 5: update program and hyperparameter schedule -/

/-- Bytes of the state region of a tensor (R225). -/
def TensorDesc.stateBytes (t : TensorDesc) : Nat := 15 * t.n + 12 * t.rows

/-- The fast-tier ranges that a descriptor decodes, with the kind of region each must lie in (R228, R256). -/
def TensorDesc.ranges (t : TensorDesc) : List (Nat × Nat × Nat) :=
  [(t.work, (if t.wfmt = 1 then 512 else 256) * t.rows, 1)] ++ (if t.wfmt = 1 then [] else [(t.wscale, 4 * t.rows, 1)]) ++
  (if t.rule = 15 then [] else [(t.grad, gradWidth t * t.n, 2)]) ++
  (if t.outer = 0 then [] else [(t.delta, outerWidth t * t.n, 5), (t.localAddr, outerWidth t * t.n, 5)])

/-- A range lies in the fast tier of a stack, outside its plan region. -/
def inFast (stack pa n : Nat) : Bool := decide (fastAddr stack 0 ≤ pa ∧ pa + n ≤ fastAddr stack planBase)

/-- A descriptor's own fields (R228, R229). -/
def descBad (stack : Nat) (d : List Byte) : Bool :=
  let t := tensorOf d
  decide (t.rows < 1 ∨ 2 ^ 24 < t.rows) || decide (5 < t.rule ∧ t.rule ≠ 15) || !([0, 6, 7].contains t.outer) ||
  decide (3 < t.gfmt) || decide (t.wfmt < 1 ∨ 3 < t.wfmt) || decide (t.rule = 15 ∧ t.outer = 0) ||
  decide (bits (le d 9 1) 7 6 ≠ 0 ∨ bits (le d 10 1) 7 4 ≠ 0) || !(zeroAt d 11 1 && zeroAt d 14 2 && zeroAt d 28 4) ||
  !(zeroAt d 39 1) || (t.wfmt != 1 && !zeroAt d 47 1) || (t.rule != 15 && !zeroAt d 23 1) ||
  (t.outer != 0 && !(zeroAt d 55 1 && zeroAt d 63 1)) || t.ranges.any (fun r => !inFast stack r.1 r.2.1)

/-- Regions of the table in a stack's fast tier of kind 4, and in its dense tier. -/
def denseRegions (p : Plan) (n : Nat) : List Region :=
  p.regions.filter fun r => match placeOf r.base with | .dense st _ => st == n | _ => false
def recordBytes4 (p : Plan) (n : Nat) : Nat :=
  ((p.regions.filter fun r => r.kind == 4 && (match placeOf r.base with | .fast st _ => st == n | _ => false)).map (·.length)).foldl (· + ·) 0

/-- State regions of a stack lie in the dense tier below the record slots, apart from each other and from the reflection. -/
def statesBad (p : Plan) (n : Nat) (prog : List TensorDesc) : Bool :=
  prog.any (fun t => decide (0xBF0000000 < t.state + t.stateBytes)) ||
  !disjointAll (prog.map fun t => (t.state, t.stateBytes)) ||
  (denseRegions p n).any fun r => prog.any fun t => rangesMeet (stateBase n t) t.stateBytes r.base r.length

/-- A shard number appears in two stacks. -/
def shardsSplit (p : Plan) : Bool :=
  let all := (List.range 20).flatMap fun n => (shardsOf (p.update.getD n [])).map fun k => (n, k)
  all.any fun a => all.any fun b => a.1 != b.1 && a.2 == b.2

/-- Reason 5. -/
def updateBad (s : State) (p : Plan) : Bool :=
  let l := planSections s
  let hp := (sectionBytes s l 5 0).length
  (List.range 20).any (fun n =>
    let b := sectionBytes s l 4 n
    decide (b.length % 64 ≠ 0) || (records 64 b).any (descBad n) || statesBad p n (p.update.getD n []) ||
    decide (recordBytes4 p n > 127 * 0x100000) || decide (100 < (shardsOf (p.update.getD n [])).length)) ||
  shardsSplit p || decide (hp % 224 ≠ 0 ∨ hp < 224 ∨ 1048576 * 224 < hp)

/-! ### Reason 6: regions, Fuelle schedule, ingest -/

/-- A region entry lies in the tier of its kind, outside plan regions and record slots (R256). -/
def regionBad (r : Region) : Bool :=
  match placeOf r.base with
  | .fast n _ => r.kind == 8 || decide (8 < r.kind) || !inFast n r.base r.length
  | .dense n _ => r.kind != 8 || decide (denseAddr n 0xBF0000000 < r.base + r.length)
  | _ => true

/-- A range lies within one region of a kind. -/
def withinKind (p : Plan) (kind pa n : Nat) : Bool :=
  p.regions.any fun r => r.kind == kind && decide (r.base ≤ pa ∧ pa + n ≤ r.base + r.length)

/-- The areas that a Fuelle schedule names: outbound, transmit and receive slots, staging and snapshots (R340, R357). -/
def fulAreas (p : Plan) (f : FulSched) : List (Nat × Nat) :=
  f.tensors.map (fun t => (t.out, f.odepth * t.outStride)) ++
  f.partners.flatMap (fun q => [(q.txBase, f.odepth * q.txStride), (q.rxBase, f.rdepth * q.rxStride)]) ++
  [(f.rxStage, 0x400000 * f.partners.length)] ++
  (if f.joinBase = 0 then []
   else f.tensors.map fun t =>
     let rows := match (p.update.getD t.stack [])[t.tensor]? with | some d => d.rows | none => 0
     (f.joinBase + t.joinOff, 1284 * rows))

/-- The entry's tensor descriptor. -/
def planTensor (p : Plan) (t : FulTensor) : Option TensorDesc := (p.update.getD t.stack [])[t.tensor]?

/-- Reason 6 of R341. -/
def fuelleBad (p : Plan) (b : List Byte) : Bool :=
  let f := fulSchedOf b
  let (np, nt, nx) := fulCounts b
  let (ts, ps, xs) := fulParts b
  let w := ofF32 f.selfW
  let rowsOf (k : Nat) : Nat := match f.tensors[k]? with
    | some t => (match planTensor p t with | some d => d.rows | none => 0)
    | none => 0
  let pieceOf (k : Nat) : List FulPiece := f.pieces.filter fun x => x.partner == k
  decide (b.length ≠ 64 + 32 * nt + 48 * np + 16 * nx) ||
  decide (f.g < 1 ∨ p.h < f.g) || decide (bits (le b 2 1) 7 4 ≠ 0 ∨ bits (le b 3 1) 7 2 ≠ 0) ||
  decide (f.odepth < 1 ∨ 16 < f.odepth ∨ f.rdepth < 1 ∨ 16 < f.rdepth ∨ np < 1 ∨ 4096 < np) ||
  !(zeroAt b 40 24) || decide (bits f.selfW.toNat 30 23 = 255) || w.isZero || w.sign ||
  ts.any (fun d => decide (19 < le d 0 1) || decide (bits (le d 1 1) 7 1 ≠ 0) || !zeroAt d 2 2) ||
  f.tensors.any (fun t => match planTensor p t with
    | none => true
    | some d => decide (d.outer = 0) || decide (t.outStride < 260 * d.rows)) ||
  (List.range 20).any (fun n =>
    let prog := p.update.getD n []
    (List.range prog.length).any fun k =>
      (match prog[k]? with | some d => d.outer != 0 | none => false) && !(f.tensors.any fun t => t.stack == n && t.tensor == k)) ||
  ps.any (fun d => decide (bits (le d 0 1) 7 1 ≠ 0) || !zeroAt d 1 3 || !zeroAt d 40 8) ||
  (List.range f.partners.length).any (fun k => match f.partners[k]? with
    | none => true
    | some q =>
      decide (q.ubytes ≠ ((pieceOf k).map fun x => 260 * x.rows).foldl (· + ·) 0) ||
      decide (q.txStride < q.ubytes + 80 * ((q.ubytes + 65535) / 65536)) || decide (q.rxStride < q.ubytes) ||
      !disjointAll ((pieceOf k).map fun x => (2 ^ 32 * x.tentry + x.first, x.rows))) ||
  xs.any (fun d => !zeroAt d 2 2) ||
  f.pieces.any (fun x => decide (np ≤ x.partner ∨ nt ≤ x.tentry ∨ x.rows < 1 ∨ rowsOf x.tentry < x.first + x.rows)) ||
  (fulAreas p f).any (fun a => !withinKind p 5 a.1 a.2) || !disjointAll (fulAreas p f)

/-- UDP ports of the device, stored and in use (R406). -/
def ownPorts (s : State) : List Nat := [pstLatest s ixIsxPort, s.isx.port, pstLatest s ixFulPort, pstValue s ixFulPort]

/-- Reason 6 of R406; reserved parts are ignored (R10). -/
def ingestBad (s : State) (p : Plan) (b : List Byte) : Bool :=
  let n := le b 0 2
  decide (b.length ≠ 32 + 80 * n ∨ n < 1 ∨ 2048 < n) || decide (le b 2 2 ≠ 0xFFFF ∧ n ≤ le b 2 2) ||
  p.streams.any (fun e =>
    decide (0x3FFF < e.context) || decide (1 < e.kind) || decide (e.rbytes < 64 ∨ 0x100000 < e.rbytes ∨ e.rbytes % 64 ≠ 0) ||
    decide (e.rslots < 2 * e.per) || decide (479 < e.noteCore) || decide (e.orecs < 1) || (ownPorts s).contains e.lport ||
    !withinKind p (if e.kind = 0 then 3 else 7) e.ring (e.rslots * e.rbytes)) ||
  !disjointAll (p.streams.map fun e => (e.ring, e.rslots * e.rbytes)) ||
  !disjointAll (p.streams.map fun e => (e.context, 1)) ||
  !disjointAll (p.streams.map fun e => (65536 * (e.context / 0x2000) + e.lport, 1))

/-- Reason 6 (R256); reserved bytes of an entry are ignored (R10). -/
def regionsBad (s : State) (p : Plan) : Bool :=
  let l := planSections s
  let b := sectionBytes s l 6 0
  decide (b.length % 32 ≠ 0 ∨ b.length < 32 ∨ 8192 * 32 < b.length) ||
  p.regions.any regionBad || !disjointAll (p.regions.map fun r => (r.base, r.length)) ||
  p.update.any (fun prog => prog.any fun t => t.ranges.any fun r => !withinKind p r.2.2 r.1 r.2.1) ||
  (p.fuelle.isSome && fuelleBad p (sectionBytes s l 8 0)) || ingestBad s p (sectionBytes s l 9 0)

/-! ### Reasons 7 and 8 -/

/-- Reason 7: a VALID entry that sends on must name a logical port with USE above 0, and entry 0xFFFF is not VALID (R425). -/
def routesBad (s : State) (p : Plan) : Bool :=
  let l := planSections s
  (List.range 7).any (fun k =>
    let n := (sectionBytes s l 3 k).length
    decide (n % 8 ≠ 0 ∨ 65536 * 8 < n)) ||
  p.routes.any (fun t => match t[65535]? with | some r => r.valid | none => false) ||
  p.routes.any fun t => t.any fun r => r.valid && !r.isLocal && (match p.wires[r.egress]? with | some w => w.use == 0 | none => true)

/-- A phase table as R261 checks it. -/
def phaseTableBad (t : List Byte) (e : Nat) : Bool :=
  (List.range 7).any fun k =>
    !(k == 6 && e == 0) &&
    (decide (t.length < 64 * (k + 1)) || !zeroAt t (64 * k + 8) 56 || decide (t.length < blockOffset t k + blockBytes) ||
     (List.range 480).any fun c =>
       let d := (t.drop (blockOffset t k + 16 * c)).take 16
       bit (le d 0 2) 14 && (decide (5 < bits (le d 0 4) 18 15) || decide (le d 0 16 / 2 ^ 19 ≠ 0)))

/-- Some core of the EVAL block is active. -/
def evalActive (t : List PhaseBlock) : Bool := match t[6]? with | some b => b.cores.any (·.active) | none => false

/-- Reason 8 (R249, R261, R268, R275). -/
def phasesBad (s : State) (p : Plan) : Bool :=
  let l := planSections s
  phaseTableBad (sectionBytes s l 2 0) p.e || (p.fbk && phaseTableBad (sectionBytes s l 2 1) p.e) ||
  decide (p.p < 1 ∨ 64 < p.p ∨ p.v < 1 ∨ 16 < p.v ∨ p.m < 1 ∨ p.ring < 1 ∨ 64 < p.ring) ||
  decide (p.dims.1 * p.dims.2.1 * p.dims.2.2 < p.p * p.ring) ||
  decide (1 < p.p ∧ (p.m < 2 * p.p ∨ (2 ≤ p.v ∧ p.m % p.p ≠ 0))) ||
  (if p.e = 0 then p.ingEval.isSome
   else
     (match p.ingEval.bind fun k => p.streams[k]? with | some x => x.kind != 1 | none => true) ||
     !evalActive p.main || (p.fbk && !evalActive p.fall) || !(p.regions.any fun r => r.kind == 6))

/-- The form of the wiring section (R296). -/
def wiringBad (s : State) (p : Plan) : Bool :=
  let b := sectionBytes s (planSections s) 7 0
  decide (b.length ≠ 1568 ∨ p.part = 0 ∨ bits (le b 4 1) 7 4 ≠ 0) || !zeroAt b 5 27 ||
  (records 32 (b.drop 32)).any (fun d => decide (3 < le d 0 1 ∨ 47 < le d 1 1) || !(zeroAt d 2 2 && zeroAt d 20 12))

/-! ### Committed records (R242, R423) -/

/-- Device record of a slot in ST00 or ST19, where MAGIC and DCRC hold; none where the tiers were lost (R483). -/
def deviceRecordAt (s : State) (stack slot : Nat) : Option (List Byte) :=
  let b := readBytes s (denseAddr stack (slot + 0x1000)) 29316
  if slotLost s slot = false ∧ le b 0 4 = 0x44455652 ∧ le b 29312 4 = crc32c (b.take 29312) then some b else none

/-- The stack record of a slot agrees with the device record. -/
def stackRecordOk (s : State) (p : Plan) (slot : Nat) (dev : List Byte) (n : Nat) : Bool :=
  let b := readBytes s (denseAddr n slot) 3856
  let tb := le b 24 8
  le b 4 4 == le dev 4 4 && crc32c b == le dev (40 + 4 * n) 4 && tb == recordBytes4 p n &&
  crc32c (readBytes s (denseAddr n (slot + 0x100000)) tb) == le b 32 4

/-- The device record of a committed slot, from ST00 or else ST19. -/
def committedSlot (s : State) (p : Plan) (slot : Nat) : Option (List Byte) :=
  [0, 19].findSome? fun st => (deviceRecordAt s st slot).bind fun d =>
    if le d 16 4 = p.gen ∧ (List.range 20).all (stackRecordOk s p slot d) then some d else none

/-- The newest committed slot and its device record; the flag says that the order of R423 does not decide it. -/
def newestRecord (s : State) (p : Plan) : Option (Nat × List Byte × Bool) :=
  match committedSlot s p slotA, committedSlot s p slotB with
  | none, none => none
  | some a, none => some (slotA, a, false)
  | none, some b => some (slotB, b, false)
  | some a, some b =>
    if (le b 4 4 + 1) % 2 ^ 32 = le a 4 4 then some (slotA, a, false)
    else if (le a 4 4 + 1) % 2 ^ 32 = le b 4 4 then some (slotB, b, false)
    else if le b 8 8 > le a 8 8 then some (slotB, b, true)
    else some (slotA, a, true)

/-- A slot holds a good device record of another generation. -/
def otherGeneration (s : State) (p : Plan) : Bool :=
  [0, 19].any fun st => [slotA, slotB].any fun x => match deviceRecordAt s st x with
    | some d => le d 16 4 != p.gen
    | none => false

/-- The reason that refuses a commit at order 2 or 3; 0: none (R255). -/
def planReason (s : State) (resume : Bool) : Nat :=
  if headerBad s then 1
  else if directoryBad s then 3
  else if planDigest s ≠ ((planHeader s).drop 64).take 32 then 2
  else
    let p := planOf s
    if p.features &&& s.fw.features ≠ p.features then 4
    else if updateBad s p then 5
    else if regionsBad s p then 6
    else if routesBad s p then 7
    else if phasesBad s p then 8
    else if p.gen = 0 then 9
    else if resume && (newestRecord s p).isNone then (if otherGeneration s p then 9 else 10)
    else if wiringBad s p then 11
    else 0

end Sys2Proof.Machine
end

