-- ==== Sys2Proof/Machine/PlanCmds.lean ====
section
/-!
DEFINITION. Plan and step commands: plan writes and reads (R253), the commit (R254 to R257, R296, R297, R406, R423, R424), its
release (R258), and STEP_START to EVAL_STATUS (R400).
-/
namespace Sys2Proof.Machine

/-! ### Plan space -/

/-- Writes bytes into plan space. -/
def writePlan (s : State) (off : Nat) : List Byte → State
  | [] => s
  | b :: r => writePlan (writeByte s (planAddr off) b) (off + 1) r

/-- PLAN_WRITE (R253): 8 bytes of offset, then 1 to 8,952 bytes. -/
def doPlanWrite (e : Env) (p : List Byte) (s : State) : State :=
  let c : HostCmd :=
    { opcode := 0x30, states := inI, len := fun n => decide (9 ≤ n ∧ n ≤ 8960), ok := fun _ => true, urgent := false }
  receive (.planWrite e p) e p c (fun s =>
    if s.long.commit.isSome then reply s e stBusy []
    else if be p 0 8 + (p.length - 8) > planSpace then reply s e stLimit []
    else reply (writePlan s (be p 0 8) (p.drop 8)) e stOk []) s
def execPlanWrite (e : Env) (p : List Byte) (s : State) : Out := hostCommand (.planWrite e p) e s (doPlanWrite e p)

/-- PLAN_READ: offset and length, 1 to 8,960. -/
def doPlanRead (e : Env) (p : List Byte) (s : State) : State :=
  receive (.planRead e p) e p
    (plainCmd 0x31 inIRUQ 16 fun p => resv0 p 12 4 && decide (1 ≤ be p 8 4 ∧ be p 8 4 ≤ 8960))
    (fun s =>
      if be p 0 8 + be p 8 4 > planSpace then reply s e stLimit [] else reply s e stOk (planBytes s (be p 0 8) (be p 8 4))) s
def execPlanRead (e : Env) (p : List Byte) (s : State) : Out := hostCommand (.planRead e p) e s (doPlanRead e p)

/-! ### The commit: orders 4 and 5 -/

/-- The destination of a COPY section lies in a region that a resume keeps (R257). -/
def keptByResume (p : Plan) (dest : Nat) : Bool :=
  p.regions.any fun r => [1, 2, 4, 5].contains r.kind && decide (r.base ≤ dest ∧ dest < r.base + r.length)

/-- Order 4: COPY sections, in directory order. -/
def copySections (s : State) (p : Plan) (resume : Bool) : State :=
  forEach p.copies
    (fun s x => if resume && keptByResume p x.dest then s else writeBytes s x.dest (planBytes s x.offset x.length)) s

/-- Every working copy rederived from the committed banks. -/
def rederiveAll (s : State) (p : Plan) : State :=
  forEach (List.range 20) (fun s n => rederiveStack s n (p.update.getD n []) (bankOf s n)) s

/-- Digests of the committed bank stand as those of the last record (R239). -/
def formDigests (s : State) (p : Plan) : State :=
  forEach (List.range 20)
    (fun s n =>
      let prog := p.update.getD n []
      let d := (shardsOf prog).foldl (fun d k => tput d k (shardDigest s n prog (bankOf s n) k)) []
      s.modUnit n fun u => { u with digests := d, lastDigests := d }) s

/-- Order 5 of a fresh commit (R58, R63, R185, R234, R238, R239). -/
def freshValues (s : State) (p : Plan) : State :=
  let s := { s with
    glb := { s.glb with rseed := p.seed, lsExp := 16, lsClean := 0 }
    clusters := s.clusters.map fun e => (e.1, { e.2 with rng := [] })
    run := { s.run with step := 0 } }
  let s := forEach (List.range 20) (fun s n => s.modUnit n fun u => { ((u.loadSets (hpRow p 0)).resetSets) with bank := false }) s
  formDigests (rederiveAll s p) p

/-- P1, P2, APPLIED, bank and digests of a stack from its record (R257, R421). -/
def resumeStack (s : State) (p : Plan) (slot step n : Nat) : State :=
  let b := readBytes s (denseAddr n slot) 3856
  let prog := p.update.getD n []
  let digests : Tab (List Byte) := (List.range (le b 22 2)).foldl
    (fun d k => tput d (le b (256 + 36 * k) 2) ((b.drop (260 + 36 * k)).take 32)) []
  let s := s.modUnit n fun u =>
    let u := u.loadSets (hpRow p step)
    let u := (List.range 8).foldl (fun u k =>
      ((u.setHp k 7 (BitVec.ofNat 32 (le b (40 + 12 * k) 4))).setHp k 8 (BitVec.ofNat 32 (le b (44 + 12 * k) 4))).setHp k 9
        (BitVec.ofNat 32 (le b (48 + 12 * k) 4))) u
    { u with bank := bit (le b 20 1) 0, committed := le b 8 8, digests := digests, lastDigests := digests }
  rederiveStack s n prog (bit (le b 20 1) 0)

/-- The step-record tensors of a stack placed back into their regions (R420). -/
def resumeTensors (s : State) (p : Plan) (slot n : Nat) : State :=
  let rs := p.regions.filter fun r => r.kind == 4 && (match placeOf r.base with | .fast st _ => st == n | _ => false)
  (rs.foldl (fun (acc : State × Nat) r =>
    (copyBytes acc.1 (denseAddr n (slot + 0x100000) + acc.2) r.base r.length, acc.2 + r.length)) (s, 0)).1

/-- Random-stream slots of a device record (R422). -/
def resumeRng (s : State) (dev : List Byte) : State :=
  forEach (List.range 40)
    (fun s g => s.modCluster g fun k =>
      { k with rng := (List.range 16).foldl (fun t i =>
          let o := 128 + 20 * (16 * g + i)
          tput t i (BitVec.ofNat 32 (le dev o 4), BitVec.ofNat 128 (le dev (o + 4) 16))) [] }) s

/-- Order 5 of a resume (R257). -/
def resumeValues (s : State) (p : Plan) (slot : Nat) (dev : List Byte) (unclear : Bool) : State :=
  let s := if unclear then raiseOpen s 18 else s
  let loss := le dev 20 4
  let step := le dev 8 8 + 1
  let s := { s with
    glb := { s.glb with rseed := p.seed, lsExp := bits loss 7 0, lsClean := bits loss 30 16, lsOvf := false }
    run := { s.run with step := step } }
  let s := resumeRng s dev
  let s := forEach (List.range 20) (fun s n => resumeTensors s p slot n) s
  forEach (List.range 20) (fun s n => resumeStack s p slot step n) s

/-- A plan commit is refused: the reason is recorded, and the reply is PLAN_MISMATCH. -/
def refuseCommit (s : State) (e : Env) (reason : Nat) : State :=
  reply { s with run := { s.run with reason := reason } } e stPlanMismatch []

/-- PLAN_COMMIT, orders 1 to 5 of R254; the values that order 5 replaces are kept until order 6 ends. -/
def doPlanCommit (e : Env) (p : List Byte) (s : State) : State :=
  receive (.planCommit e p) e p (plainCmd 0x32 inI 8 fun p => decide (be p 0 1 < 2) && resv0 p 1 7) (fun s =>
    let resume := be p 0 1 == 1
    if !s.glb.imageConfirmed then reply s e stNotInState []
    else if s.long.commit.isSome then reply s e stBusy []
    else
      let reason := planReason s resume
      if reason ≠ 0 then refuseCommit s e reason
      else
        let plan := planOf s
        let kept := savedOf s
        let s := copySections s plan resume
        let s := match resume, newestRecord s plan with
          | true, some (slot, dev, unclear) => resumeValues s plan slot dev unclear
          | _, _ => freshValues s plan
        { s with run := { s.run with committing := some (plan, resume, kept) }, long := { s.long with commit := some e } }) s
def execPlanCommit (e : Env) (p : List Byte) (s : State) : Out := hostCommand (.planCommit e p) e s (doPlanCommit e p)

/-! ### The commit: orders 6 and 7 -/

/-- A port shows the neighbour that a wiring entry expects. -/
def shows (s : State) (w : WireEntry) (n : Nat) : Bool :=
  let x := s.port n
  (x.state == 4 || x.state == 6) && (match x.nbr with | some i => i.serial == w.nserial && i.port == w.nport | none => false)

/-- Used logical ports of a wiring table, with their entries. -/
def usedEntries (p : Plan) : List (Nat × WireEntry) :=
  (List.range 48).filterMap fun l => match p.wires[l]? with
    | some w => if w.use = 0 then none else some (l, w)
    | none => none

/-- A physical port as R297 wants it for an entry: UP, with the expected neighbour. -/
def fits (s : State) (w : WireEntry) (n : Nat) : Bool := (s.port n).state == 4 && shows s w n

/-- The map of ADOPT where every condition of R297 holds. -/
def adoptMap (s : State) (p : Plan) : Option (List (Nat × Nat)) :=
  let l := (usedEntries p).map fun e => (e.1, (List.range 48).filter fun n => shows s e.2 n)
  if l.all (fun e => match e.2 with
    | [n] => (s.port n).state == 4 && n % 6 == e.1 % 6
    | _ => false) then
    let m := l.map fun e => (e.1, e.2.headD 0)
    if m.all fun a => m.all fun b => a.1 == b.1 || a.2 != b.2 then some m else none
  else none

/-- The map from used logical to physical ports, or none where the commit is refused (R297, R308). -/
def wiringMap (s : State) (p : Plan) : Option (List (Nat × Nat)) :=
  let l := usedEntries p
  if l.all fun e => fits s e.2 e.1 then some (l.map fun e => (e.1, e.1))
  else if bit (pstLatest s ixMiswire) 0 then adoptMap s p
  else none

/-- The outcome FENCE: used ports that do not show the expected neighbour. -/
def fenceMiswired (s : State) (p : Plan) : State :=
  forEach ((usedEntries p).filter fun e => !shows s e.2 e.1 && !((s.port e.1).state == 5 && (s.port e.1).reason == 2))
    (fun s e => fencePort s e.1 1) s

/-- The buddy is a neighbour over a used port (R424). -/
def buddyWired (s : State) (p : Plan) : Bool :=
  s.spr.buddy == 0 || (usedEntries p).any fun e => e.2.nserial == s.spr.buddy

/-- Puts the mapping of a committed plan into use. -/
def usePorts (s : State) (p : Plan) (m : List (Nat × Nat)) : State :=
  let s := forEach m (fun s e => s.modPort e.2 fun x => { x with used := true, logical := e.1 }) s
  { s with lnk := { s.lnk with map := m.foldl (fun t e => tput t e.1 e.2) [], shared := true, bmask := p.bmask } }

/-- Ports of the list that are UP towards a neighbour of another partition (R299). -/
def foreignPorts (s : State) (p : Plan) (l : List Nat) : List Nat :=
  l.filter fun n => (s.port n).state == 4 && (match (s.port n).nbr with | some i => i.part != 0 && i.part != p.part | none => false)

/-- Fences the ports of the list whose neighbour has announced another partition (R299). -/
def fencePartitions (s : State) (p : Plan) (l : List Nat) : State :=
  forEach (foreignPorts s p l) (fun s n => fencePort s n 2) s

/-- The records of earlier runs are no longer committed: MAGIC 0 in both slots (R241). -/
def clearRecords (s : State) : State :=
  let zero := List.replicate 4 (0 : Byte)
  let s := forEach (List.range 20)
    (fun s n => writeBytes (writeBytes s (denseAddr n slotA) zero) (denseAddr n slotB) zero) ((s.fillSlot slotA).fillSlot slotB)
  forEach [0, 19]
    (fun s n => writeBytes (writeBytes s (denseAddr n (slotA + 0x1000)) zero) (denseAddr n (slotB + 0x1000)) zero) s

/-- Fault records, idle counters and engine counters are cleared (R198, R254, R279). -/
def clearCounters (s : State) : State :=
  { s with
    cores := s.cores.map fun e => (e.1, { e.2 with faultCode := 0, faultPc := 0, faultTok := 0, idle := [], busy := 0, steps := 0 })
    clusters := s.clusters.map fun e =>
      (e.1, { e.2 with faultEng := 0, faultDesc := 0, faultCode := 0, pads := 0
                       engines := e.2.engines.map fun x => (x.1, { x.2 with done := 0, units := 0, rest := 0 }) }) }

/-- The ingest streams of a plan, from the cursors of a record or from 0 (R257, R407); an endpoint that ING_ENDPOINT gave in
ISOLATED stands. -/
def openStreams (s : State) (p : Plan) (dev : Option (List Byte)) : State :=
  { s with ing := (List.range p.streams.length).filterMap fun k =>
      match p.streams[k]? with
      | none => none
      | some e =>
        let c := match dev with | some d => le d (12928 + 8 * k) 8 | none => 0
        let x : IngStream := { IngStream.reset with cursor := c, noted := c, sport := e.sport, saddr := e.saddr, cookie := e.cookie }
        let g := s.stream k
        some (k, if g.given then { x with sport := g.sport, saddr := g.saddr, cookie := g.cookie, given := true } else x) }

/-- HELD of the reflection held, where its header names the device that is to be reflected here (R426, R441). -/
def takeHeld (s : State) : State :=
  match reflectionRegion s 0 with
  | some r => if heldMagic s r && heldSerial s r == s.spr.heldUse then { s with spr := { s.spr with held := heldStep s r } } else s
  | none => s

/-- Order 7: the plan is committed. -/
def acceptCommit (s : State) (p : Plan) (resume : Bool) (m : List (Nat × Nat)) : State :=
  let rec' := if resume then newestRecord s p else none
  let s := if resume then s else clearRecords s
  let s := openStreams (clearCounters s) p (rec'.map fun r => r.2.1)
  let s := { s with
    glb := { s.glb with planVariant := p.vdef, state := if s.glb.state = .isolated then .ready else s.glb.state
                        prior := if s.glb.state = .quiesced then some .ready else s.glb.prior }
    run := { s.run with
      plan := some p, committing := none, resumed := resume, reason := 0, fallback := false, phase := 7, attempt := 0, tainted := false
      abandoned := false, start := none, lostWords := [], evalStep := none
      committed := rec'.map fun r => le r.2.1 8 8, recordSeq := rec'.map fun r => le r.2.1 4 4 }
    spr := { s.spr with buddyUse := s.spr.buddy, heldUse := s.spr.heldFor, replicasUse := s.spr.replicas, renew := true, digests := [],
                        copiesDue := [], settled := [], differing := false }
    ful := { s.ful with slots := [], sent := [], closed := none, eligible := [], ready := false, queued := none, snapshot := none,
                        joinSince := none, joinBest := none } }
  identAll (usePorts (takeHeld s) p m)

/-- A commit refused at order 6 (R254). -/
def refuseOrder6 (s : State) (kept : Saved) (reason : Nat) : State :=
  let s := restoreSaved s kept
  { s with glb := { s.glb with rseed := 0 }, run := { s.run with committing := none, reason := reason } }

/-- PLAN_COMMIT_DONE (R254): orders 6 and 7, and the reply. A used port towards another partition is fenced, and the commit
fails under R297 (R299, R300). A device that has meanwhile left ISOLATED for NEEDS_REPAIR or ALARM
commits nothing. -/
def execPlanCommitDone (s : State) : Out :=
  guardedBy true s fun s =>
    match s.run.committing, s.long.commit with
    | some (p, resume, kept), some e =>
      let s := { s with long := { s.long with commit := none } }
      if ¬(s.glb.state = .isolated ∨ s.glb.state = .quiesced) then
        reply (refuseOrder6 s kept s.run.reason) e (stateStatus s) []
      else
        let s := fencePartitions s p ((usedEntries p).map (·.1))
        match wiringMap s p with
        | some m =>
          if ¬(foreignPorts s p (m.map (·.2))).isEmpty then
            reply (refuseOrder6 (fencePartitions s p (m.map (·.2))) kept 11) e stPlanMismatch []
          else if buddyWired s p ∧ bit p.bmask s.lnk.bpos = true then reply (acceptCommit s p resume m) e stOk []
          else reply (refuseOrder6 s kept 11) e stPlanMismatch []
        | none => reply (refuseOrder6 (fenceMiswired s p) kept 11) e stPlanMismatch []
    | _, _ => s

/-- PLAN_RELEASE (R258). -/
def doPlanRelease (e : Env) (p : List Byte) (s : State) : State :=
  receive (.planRelease e p) e p (plainCmd 0x33 inR 0 fun _ => true) (fun s => reply (releasePlan s) e stOk []) s
def execPlanRelease (e : Env) (p : List Byte) (s : State) : Out := hostCommand (.planRelease e p) e s (doPlanRelease e p)

/-! ### Steps -/

/-- STEP_START (R31, R305, R358, R400): NOT_IN_STATE while a used port is not UP, BUSY while a session is JOINING. -/
def doStepStart (e : Env) (p : List Byte) (s : State) : State :=
  receive (.stepStart e p) e p (plainCmd 0x40 inR 8 fun p => resv0 p 4 4) (needing [1, 2, 3] e fun s =>
    if (usedPorts s).any (fun n => (s.port n).state != 4) = true then reply s e stNotInState []
    else if s.fctx.any (fun c => c.2.state == 3) = true then reply s e stBusy []
    else
      let s := { s with
        glb := { s.glb with state := .running }
        run := { s.run with
          stepsLeft := if be p 0 4 = 0 then none else some (be p 0 4), stopAt := none, fallback := s.glb.planVariant == 1, phase := 7
          attempt := 0, tainted := false, abandoned := false, ending := false, releaseAtResume := false, erasedStep := none } }
      reply s e stOk []) s
def execStepStart (e : Env) (p : List Byte) (s : State) : Out := hostCommand (.stepStart e p) e s (doStepStart e p)

/-- STEP_STOP: the run stops at the end of the step that runs. Without a run in progress there is none to stop. -/
def doStepStop (e : Env) (p : List Byte) (s : State) : State :=
  receive (.stepStop e p) e p (plainCmd 0x41 inUQ 0 fun _ => true) (fun s =>
    if !runInProgress s then reply s e stNotInState []
    else
      let k := s.run.stopAt.getD s.run.step
      reply { s with run := { s.run with stopAt := some k } } e stOk (beBytes 8 k)) s
def execStepStop (e : Env) (p : List Byte) (s : State) : Out := hostCommand (.stepStop e p) e s (doStepStop e p)

/-- STEP_STATUS. -/
def doStepStatus (e : Env) (p : List Byte) (s : State) : State :=
  receive (.stepStatus e p) e p (plainCmd 0x42 inIRUQ 0 fun _ => true) (fun s =>
    reply s e stOk (beBytes 8 s.run.step ++ beBytes 1 s.run.phase ++ beBytes 1 (b2n s.run.tainted) ++ [0, 0] ++ beBytes 4 s.glb.reruns)) s
def execStepStatus (e : Env) (p : List Byte) (s : State) : Out := hostCommand (.stepStatus e p) e s (doStepStatus e p)

/-- EVAL_READ: bytes of a region of kind 6; LIMIT outside. -/
def doEvalRead (e : Env) (p : List Byte) (s : State) : State :=
  receive (.evalRead e p) e p
    (plainCmd 0x50 inRUQ 16 fun p => resv0 p 12 4 && decide (1 ≤ be p 8 4 ∧ be p 8 4 ≤ 8960))
    (fun s =>
      let ok := match s.run.plan with | some q => withinKind q 6 (be p 0 8) (be p 8 4) | none => false
      if ok then reply s e stOk (readBytes s (be p 0 8) (be p 8 4)) else reply s e stLimit []) s
def execEvalRead (e : Env) (p : List Byte) (s : State) : Out := hostCommand (.evalRead e p) e s (doEvalRead e p)

/-- EVAL_STATUS; before the first slot the step reads all ones. -/
def doEvalStatus (e : Env) (p : List Byte) (s : State) : State :=
  receive (.evalStatus e p) e p (plainCmd 0x51 inRUQ 0 fun _ => true) (fun s =>
    reply s e stOk (beBytes 8 (s.run.evalStep.getD (2 ^ 64 - 1)) ++ beBytes 2 s.glb.evalSlots)) s
def execEvalStatus (e : Env) (p : List Byte) (s : State) : Out := hostCommand (.evalStatus e p) e s (doEvalStatus e p)

end Sys2Proof.Machine
end

