-- ==== Sys2Proof/Machine/Spares.lean ====
section
/-!
DEFINITION. How failures are kept out of sight (R209 to R224, R413 to R438): parity mismatches, scrubbing, die copies, the test of
a shadow core, the watchdogs, and the commands BUDDY_SET, REFILL and REPAIR_DONE.
-/
namespace Sys2Proof.Machine

/-! ### Parity mismatches (R210 to R213) -/

/-- A word of a tier is lost: its stack records it, and its content is restored before the rerun or at the step boundary; in
the plan region the plan goes (R212, R213). -/
def loseTierWord (s : State) (pa : Nat) : State :=
  match placeOf pa with
  | .fast n off =>
    let s := noteLost (loseWord s pa) n false off
    if inPlanRegion pa then losePlanWord s else { s with run := { s.run with lostWords := s.run.lostWords ++ [pa] } }
  | .dense n off =>
    let s := noteLost (loseWord s pa) n true off
    { s with run := { s.run with lostWords := s.run.lostWords ++ [pa] } }
  | .cluster _ _ => loseWord s pa
  | .cache _ _ => loseWord s pa
  | _ => s

/-- The V register that an entry of a register file holds (R73). -/
def entryHolds (s : State) (c e : Nat) : Option Nat :=
  if e < 512 then some e else if rfMapAt s c (e - 512) = 0 then none else some (rfMapAt s c (e - 512) - 1)

/-- `CORE_FAULT` records REPLAY_FAIL (R105). -/
def coreReplayFail (s : State) (c : Nat) : State := s.modCore c fun x => { x with faultCode := 5, faultPc := x.pc, faultTok := 0 }

/-- `CLU_ENG_FAULT` records REPLAY_FAIL, where no fault of the step is recorded yet (R196, R197). -/
def engineReplayFail (s : State) (g eng : Nat) : State :=
  s.modCluster g fun k =>
    if k.faultThisStep then k
    else { k with faultEng := eng, faultDesc := (tget Engine.reset k.engines eng).cur, faultCode := 7, faultThisStep := runInProgress s }

/-- A 32-bit word of a core's scalar, address or predicate registers, or a token counter, takes a free value (R212); the numbers
are those of `Mismatch.word`. -/
def loseRegWord (s : State) (c word : Nat) : State :=
  let v := freeNat s.fresh 4
  let x := s.core c
  let x' :=
    if word < 128 then
      let sh := 32 * (word % 2)
      writeS x (word / 2) ((readS x c (word / 2) &&& ~~~ (0xFFFFFFFF#64 <<< sh)) ||| (BitVec.ofNat 64 v <<< sh))
    else if word < 160 then writeX x (word - 128) (BitVec.ofNat 32 v)
    else if word < 416 then
      let sh := 32 * ((word - 160) % 16)
      writeP x c ((word - 160) / 16) (BitVec.ofNat 512 v <<< sh) (0xFFFFFFFF#512 <<< sh)
    else writeT x (word - 416) (v % 65536)
  (s.setCore c x').ticket

/-- The fault register of the block that took an unspecified word, and the word itself. A transfer over Mortar was taken by an engine
of the cluster where it lands. -/
def recordLoss (s : State) (m : Mismatch) : State :=
  let s := match m.pa with | some pa => loseTierWord s pa | none => s
  match m.res with
  | .core c =>
    let s := coreReplayFail s c
    if m.pa.isSome then s else loseRegWord s c m.word
  | .rfEntry c e =>
    let s := coreReplayFail s c
    match entryHolds s c e with
    | some r => (s.modCore c fun x => writeVs x c (512 * r + 4 * (m.word % 128)) ((freeBytes s.fresh 4).map fun b => (b, 0xFF))).ticket
    | none => s
  | .bank g _ => engineReplayFail s g m.eng
  | .laneGroup _ _ =>
    match m.pa.map placeOf with
    | some (.cluster g _) => engineReplayFail s g m.eng
    | some (.cache c _) => engineReplayFail s (c / 12) m.eng
    | _ => s
  | _ => s

/-- Replays that delivered the word, counted by the stacks (R223). -/
def countReplay (s : State) : Res → State
  | .die n _ _ => s.modStack n fun k => { k with parDies := satInc 0xFFFF k.parDies }
  | .laneGroup q _ => if 32 ≤ q then s.modStack (q - 32) fun k => { k with parIface := satInc 0xFFFF k.parIface } else s
  | _ => s

/-- The path of R210 that a resource serves. -/
def onMemoryPath : Res → Bool
  | .core _ => true
  | .bank _ _ => true
  | .die _ _ _ => true
  | .laneGroup _ _ => true
  | .rfEntry _ _ => true
  | .column _ _ _ => true
  | _ => false

/-- Bank of a cluster offset (R161). -/
def clusterBank (off : Nat) : Nat := off / 512 % 32

/-- The resource that a mismatch counts against: where an address is given, the bank or the die that it lies in, and of these the
shadow where that serves the access (R161, R220, R417). -/
def mismatchRes (s : State) (m : Mismatch) : Res :=
  match m.res, m.pa.map placeOf with
  | .bank _ _, some (.cluster g off) => servedRes s (.bank g (clusterBank off))
  | .die _ _ _, some (.fast n off) => dieRes s n false off
  | .die _ _ _, some (.dense n off) => dieRes s n true off
  | r, _ => r
where
  /-- The die that a read reaches: while a copy runs, the shadow die below the copy pointer (R220). -/
  dieRes (s : State) (n : Nat) (dense : Bool) (off : Nat) : Res :=
    let k := s.stack n
    let copying := if dense then k.denseCopying && k.denseRunning else k.fastCopying && k.fastRunning
    let ptr := if dense then k.densePtr else k.fastPtr
    if copying && (if dense then k.denseDie else k.fastDie) == some (dieOf off) && decide (localOf off / 1024 < ptr) then .die n dense 8
    else servedRes s (.die n dense (dieOf off))

/-- Cycles that `n` replays take, each within the bound of R210; how many they are is free. -/
def replayCycles (ticket bound n : Nat) : Nat := ((List.range n).map fun i => 1 + (Config.freeByte ticket i).toNat % bound).sum

/-- A mismatch at a register file or an operand cache stalls its core for the replays (R73, R210, R211). -/
def stallReplay (s : State) (m : Mismatch) : State :=
  let n := Nat.min 3 (m.failures + 1)
  match m.res with
  | .core c => (stallCore s c (replayCycles s.fresh (if m.pa.isSome then 4 else 2) n)).ticket
  | .rfEntry c _ => (stallCore s c (replayCycles s.fresh 2 n)).ticket
  | _ => s

/-- PARITY_MISMATCH (R135, R210 to R213): an array cannot replay; elsewhere a replay delivers the word and counts one event, or
the third one fails and the resource is lasting at once. -/
def execParityMismatch (m : Mismatch) (s : State) : Out :=
  guarded (.parityMismatch m) s fun s =>
    if !working s then s
    else if let .linkLane _ _ := m.res then countEvent s m.res
    else if !onMemoryPath m.res then s
    else
      match m.res with
      | .column c a _ =>
        let s := s.modCore c fun x => { x with arrays := tmod .reset x.arrays a fun r => { r with parEvents := satInc 0xFFFF r.parEvents } }
        taintReset (countEvent s m.res)
      | _ =>
        let res := mismatchRes s m
        let s := stallReplay s m
        if m.failures < 3 then countEvent (countReplay s res) res
        else taintReset (markLasting (recordLoss s { m with res := res }) res)

/-! ### Scrubbing (R214 to R216) -/

/-- Words of a tier of a stack, and the offset of the n-th word: the units of 1 KiB in die-local order, rotating over the dies, which
is the order of the tier's offsets (R203, R214). -/
def tierWords (dense : Bool) : Nat := if dense then 0x300000000 else 0x180000000
def scrubOffset (n : Nat) : Nat := 4 * n

/-- A scrub read fails: the word is replayed and counted, or lost without a taint. -/
def scrubFail (s : State) (n : Nat) (dense : Bool) (off : Nat) (lost : Bool) : State :=
  let res := servedRes s (.die n dense (dieOf off))
  if !lost then countEvent (countReplay s res) res
  else markLasting (loseTierWord s (if dense then denseAddr n off else fastAddr n off)) res

/-- Ticks of a scrub period in minutes. -/
def periodTicks (minutes : Nat) : Nat := minutes * 6000000000

/-- A pass that has read `done` words in `spent` ticks is behind the even pace that ends it within its period (R215; the pace is the
model's, log 76). -/
def behind (dense : Bool) (done spent minutes : Nat) : Bool := decide (spent * tierWords dense > (done + 1) * periodTicks minutes)

/-- The scrub position of a tier after a read: a pass that ends is counted, and the next begins with the period now written (R224). -/
def Stk.scrubbed (k : Stk) (dense : Bool) (now : Nat) : Stk :=
  let done := if dense then k.denseScrub else k.fastScrub
  let next := (done + 1) % tierWords dense
  let late := k.scrubEn && behind dense done (now - (if dense then k.denseBegun else k.fastBegun)) (if dense then k.densePeriod else k.fastPeriod)
  if dense then
    { k with denseScrub := next, denseLate := late
             densePasses := if next = 0 then satInc 0xFF k.densePasses else k.densePasses
             denseBegun := if next = 0 then now else k.denseBegun
             densePeriod := if next = 0 then k.scrubPeriod else k.densePeriod }
  else
    { k with fastScrub := next, fastLate := late
             fastPasses := if next = 0 then satInc 0xFF k.fastPasses else k.fastPasses
             fastBegun := if next = 0 then now else k.fastBegun
             fastPeriod := if next = 0 then k.scrubPeriod else k.fastPeriod }

/-- Words of a unit of 1 KiB (R203, R224). -/
def scrubUnit : Nat := 256

/-- SCRUB_READ (R214): the next word of a tier is read; `failures` of its reads fail, the first one and then the replays. With EN
at 0 reads go on to the end of the unit (R224). -/
def execScrubRead (stack : Nat) (dense : Bool) (failures : Nat) (s : State) : Out :=
  guarded (.scrubRead stack dense failures) s fun s =>
    let k := s.stack stack
    let copying := if dense then k.denseCopying else k.fastCopying
    let at' := if dense then k.denseScrub else k.fastScrub
    if !working s || (!k.scrubEn && at' % scrubUnit == 0) || copying || s.pwr.dip || s.pwr.low != 0 || !stackServes s stack then s
    else
      let s := s.modStack stack fun k => k.scrubbed dense s.now
      if failures = 0 then s else scrubFail s stack dense (scrubOffset at') (decide (4 ≤ failures))

/-! ### Die copies, shadow cores, watchdogs -/

/-- Units of 1 KiB of a die (R17, R221). -/
def dieUnits (dense : Bool) : Nat := if dense then 0x600000 else 0x300000

/-- What the copies of a stack read and write in one idle tick: the guaranteed slots, 1.22 units of 1 KiB for a fast and 0.61 for a
dense die, and a free number of idle slots (R200, R221). A pointer stands before the end of its die until DIE_COPY_END. -/
def Stk.copied (k : Stk) (ticket : Nat) : Stk :=
  { k with
    fastPtr := if k.fastCopying && k.fastRunning then Nat.min (dieUnits false - 1) (k.fastPtr + 2 + (Config.freeByte ticket 0).toNat) else k.fastPtr
    densePtr := if k.denseCopying && k.denseRunning then Nat.min (dieUnits true - 1) (k.densePtr + 1 + (Config.freeByte ticket 1).toNat)
      else k.densePtr }

/-- Die copies go on in an idle tick, where the stack serves accesses (R220, R221, R480, R485). -/
def copyTick (s : State) : State :=
  if s.stk.any fun e => e.2.fastRunning || e.2.denseRunning then
    State.ticket { s with stk := s.stk.map fun e => (e.1, if stackServes s e.1 then e.2.copied s.fresh else e.2) }
  else s

/-- DIE_COPY_END (R221): the shadow die serves; event 8 follows the write of the die map. -/
def execDieCopyEnd (stack : Nat) (dense : Bool) (s : State) : Out :=
  guarded (.dieCopyEnd stack dense) s fun s =>
    let k := s.stack stack
    let running := if dense then k.denseCopying && k.denseRunning else k.fastCopying && k.fastRunning
    if !running then s
    else
      let s := s.modStack stack fun k =>
        if dense then { k with denseCopying := false, denseRunning := false, densePtr := dieUnits true }
        else { k with fastCopying := false, fastRunning := false, fastPtr := dieUnits false }
      let d := (if dense then k.denseDie else k.fastDie).getD 0
      ownWrite s (ixDieMap stack) (dieMap s stack - (if dense then 512 else 256)) (.copyEnd (resWord (.die stack dense d)))

/-- SHADOW_TEST_DONE (R415): the shadow core of a cluster, whose map record is written, has passed its test or failed it. -/
def execShadowTestDone (g : Nat) (pass : Bool) (s : State) : Out :=
  guarded (.shadowTestDone g pass) s fun s =>
    let mine := fun (w : Swap) => resClass w.res == 1 && decide (w.res % 2 ^ 24 / 12 = g) && w.written
    match s.spr.swaps.find? mine with
    | none => s
    | some w =>
      if pass then
        swapsOutsideRun { s with spr := { s.spr with swaps := s.spr.swaps.map fun x => if mine x then { x with tested := true } else x } }
      else needsRepair s (resWord (.builtinTest (w.res % 2 ^ 24)))

/-- MGMT_WATCHDOG_EXPIRY (R418). -/
def execMgmtWatchdogExpiry (s : State) : Out :=
  guarded .mgmtWatchdogExpiry s fun s =>
    if !working s then s
    else
      let s := { s with spr := { s.spr with mgmtExpiries := satInc 0xFFFF s.spr.mgmtExpiries } }
      countEvent (ownReset s 0) (.mgmtCore (b2n s.spr.mgmtActive))

/-- FUELLE_WATCHDOG_EXPIRY (R434). -/
def execFuelleWatchdogExpiry (s : State) : Out :=
  guarded .fuelleWatchdogExpiry s fun s => ownReset s 4

/-! ### Commands (R424, R432, R435, R436, R438) -/

/-- Entry k of BUDDY_SET. -/
def replicaEntry (p : List Byte) (k : Nat) : ReplicaEntry :=
  let b := 40 + 24 * k
  { shard := be p b 2, n := be p (b + 2) 1, routes := (List.range (be p (b + 2) 1 - 1)).map fun i => be p (b + 4 + 2 * i) 2 }

/-- Ranges of BUDDY_SET: at most 64 entries, as many as the LENGTH has, of 2 to 8 replicas each. -/
def buddyOk (p : List Byte) : Bool :=
  let n := be p 32 2
  decide (n ≤ 64 ∧ p.length = 40 + 24 * n) && resv0 p 34 6 &&
  (List.range n).all fun k =>
    let b := 40 + 24 * k
    decide (2 ≤ be p (b + 2) 1 ∧ be p (b + 2) 1 ≤ 8) && resv0 p (b + 3) 1 && resv0 p (b + 18) 6

/-- BUDDY_SET (R424): it takes effect at the next plan commit. -/
def buddyCmd : HostCmd :=
  { plainCmd 0xA1 inIR 0 buddyOk with len := fun n => decide (40 ≤ n ∧ n ≤ 40 + 24 * 64 ∧ (n - 40) % 24 = 0) }
def doBuddySet (e : Env) (p : List Byte) (s : State) : State :=
  receive (.buddySet e p) e p buddyCmd (fun s =>
    reply { s with spr := { s.spr with
      buddy := BitVec.ofNat 128 (be p 0 16), heldFor := BitVec.ofNat 128 (be p 16 16)
      replicas := (List.range (be p 32 2)).map (replicaEntry p) } } e stOk []) s
def execBuddySet (e : Env) (p : List Byte) (s : State) : Out := hostCommand (.buddySet e p) e s (doBuddySet e p)

/-- A loaded image whose header, directory, digest and update programs pass (R254, R436). -/
def fillPlan (s : State) : Option Plan :=
  if headerBad s || directoryBad s || planDigest s != ((planHeader s).drop 64).take 32 then none
  else
    let p := planOf s
    if updateBad s p then none else some p

/-- The parts of a stack's image and their places (R225, R426, R436). -/
def fillOf (p : Plan) (n : Nat) : Fill :=
  let prog := p.update.getD n []
  let tensors := (List.range prog.length).flatMap fun k =>
    match prog[k]? with
    | none => []
    | some t =>
      let off := tensorOffset prog k
      let base := stateBase n t
      [{ off := off, len := 4 * t.n, base0 := base, base1 := base + 4 * t.n, byBank := true : FillSeg },
       { off := off + 4 * t.n, len := 7 * t.n + 12 * t.rows, base0 := base + 8 * t.n, base1 := base + 8 * t.n, byBank := false }]
  { segs := { off := 0, len := slotImageSize, base0 := denseAddr n slotA, base1 := denseAddr n slotB, byBank := false } :: tensors
    slotB := false, bankB := false, step := 0, known := false, early := [], came := 0, outside := false }

/-- The step that the reflected stack record of stack 0 names, and whether HELD or a shard tag differs from it (R436). -/
def reflectedStep (s : State) (r : Region) : Nat :=
  let a := heldAddr r 0
  readLe s (a + 8) 8
def reflectionStale (s : State) : Bool :=
  (List.range 20).any fun n =>
    match reflectionRegion s n with
    | none => false
    | some r =>
      let k := reflectedStep s r
      !heldMagic s r || heldStep s r != k ||
      (shardsOf (programOf s n)).any fun x => tagOf s r x != k

/-- Streams the held images to the partner, in MSG flits with window s for stack s (R435). -/
def sendImages (s : State) (ports : List Nat) : State :=
  forEach (List.range 20) (fun s n =>
    match reflectionRegion s n with
    | none => s
    | some r =>
      let size := imageSize (programOf s n)
      forEach (List.range ((size + 511) / 512)) (fun s i =>
        let bytes := readBytes s (heldAddr r (512 * i)) (Nat.min 512 (size - 512 * i))
        forEach (transferFlits (blankFlit s 2) (n * 2 ^ 48 + 512 * i) bytes) (fun s f => sendFlit s (ports.getD (i % ports.length) 0) f) s) s) s

/-- REFILL as source (R436). -/
def refillFrom (s : State) (e : Env) (serial : BitVec 128) : State :=
  let ports := portsTo s serial
  if ports.isEmpty then reply s e stLimit []
  else if s.run.plan.isNone then reply s e stPlanMismatch []
  else if reflectionStale s then reply s e stStale []
  else sendImages { s with long := { s.long with refill := some (0, e, serial) } } ports

/-- REFILL as target (R436). -/
def refillInto (s : State) (e : Env) (serial : BitVec 128) : State :=
  if (portsTo s serial).isEmpty then reply s e stLimit []
  else
    match fillPlan s with
    | none => reply s e stPlanMismatch []
    | some p =>
      { s with long := { s.long with refill := some (1, e, serial) }
               lnk := { s.lnk with fills := (List.range 20).map fun n => (n, fillOf p n) } }

/-- REFILL (long): ROLE 0 source, 1 target; each role has its states (R438). -/
def refillCmd (p : List Byte) : HostCmd :=
  plainCmd 0xA2 (if be p 0 1 = 0 then [.ready, .quiesced, .needsRepair] else inI) 24
    (fun p => decide (be p 0 1 ≤ 1) && resv0 p 1 3 && resv0 p 20 4)
def serveRefill (e : Env) (p : List Byte) (s : State) : State :=
  let serial := BitVec.ofNat 128 (be p 4 16)
  if s.long.refill.isSome then reply s e stBusy []
  else if be p 0 1 = 0 then refillFrom s e serial else refillInto s e serial
def doRefillSource (e : Env) (p : List Byte) (s : State) : State := receive (.refillSource e p) e p (refillCmd p) (serveRefill e p) s
def execRefillSource (e : Env) (p : List Byte) (s : State) : Out := hostCommand (.refillSource e p) e s (doRefillSource e p)
def doRefillTarget (e : Env) (p : List Byte) (s : State) : State := receive (.refillTarget e p) e p (refillCmd p) (serveRefill e p) s
def execRefillTarget (e : Env) (p : List Byte) (s : State) : Out := hostCommand (.refillTarget e p) e s (doRefillTarget e p)

/-- The images that have come differ in size from those of the loaded plan (R436). -/
def fillsDiffer (s : State) : Bool := s.lnk.fills.any fun e => e.2.outside || e.2.came != e.2.length

/-- REFILL_DONE (R436): the stream has ended; both replies carry the reflected step. A target compares the sizes itself. -/
def execRefillDone (result : RefillResult) (s : State) : Out :=
  guardedBy true s fun s =>
    match s.long.refill with
    | none => s
    | some (role, e, _) =>
      let step :=
        if role = 0 then (match reflectionRegion s 0 with | some r => reflectedStep s r | none => 0)
        else (match tfind s.lnk.fills 0 with | some x => x.step | none => 0)
      let slot := (tfind s.lnk.fills 0).any (·.slotB)
      let result := if role = 1 ∧ result = .complete ∧ fillsDiffer s = true then .sizesDiffer else result
      let s := { s with long := { s.long with refill := none }, lnk := { s.lnk with fills := [] } }
      match result with
      | .complete =>
        let s := if role = 0 then s else (s.fillSlot (if slot then slotB else slotA))
        reply s e stOk (beBytes 8 step)
      | .stale => reply s e stStale []
      | .sizesDiffer => reply s e stPlanMismatch []

/-- Renames a sender in the headers of the reflections held; the tags stay (R435). -/
def renameSender (s : State) (old new : BitVec 128) : State :=
  forEach (List.range 20) (fun s n =>
    match reflectionRegion s n with
    | some r => if heldMagic s r && heldSerial s r == old then writeBytes s (r.base + 8) (leBytes 16 new.toNat) else s
    | none => s) s

/-- REPAIR_DONE (R427, R435): the new serial takes the old one's place as buddy, as the device reflected, and in the headers of
reflections; a reflection session with either opens again. -/
def doRepairDone (e : Env) (p : List Byte) (s : State) : State :=
  receive (.repairDone e p) e p (plainCmd 0xA3 inR 32 fun _ => true) (fun s =>
    let old := BitVec.ofNat 128 (be p 0 16)
    let new := BitVec.ofNat 128 (be p 16 16)
    let swap := fun (x : BitVec 128) => if x = old then new else x
    let mine := old ≠ 0 ∧ (s.spr.buddyUse = old ∨ s.spr.heldUse = old ∨ s.spr.buddyUse = new ∨ s.spr.heldUse = new)
    let s := renameSender s old new
    let s :=
      if old = 0 then s
      else { s with spr := { s.spr with
        buddy := swap s.spr.buddy, heldFor := swap s.spr.heldFor, buddyUse := swap s.spr.buddyUse, heldUse := swap s.spr.heldUse
        renew := s.spr.renew || decide mine } }
    reply s e stOk []) s
def execRepairDone (e : Env) (p : List Byte) (s : State) : Out := hostCommand (.repairDone e p) e s (doRepairDone e p)

end Sys2Proof.Machine
end

