-- ==== Sys2Proof/Machine/Firmware.lean ====
section
/-!
DEFINITION. The firmware commands (R454 to R456), the end of an erase (R451), the internal test step and the confirmation of an
image (R460, R461).
-/
namespace Sys2Proof.Machine

/-! ### Commands (R454) -/

def fwCmd (opcode length : Nat) (ok : List Byte → Bool) : HostCmd := plainCmd opcode inIRUQN length ok

/-- Slot and action of the parameters. -/
def fwSlot (p : List Byte) : Nat := be p 0 1
def slotOk (p : List Byte) : Bool := decide (fwSlot p ≤ 2)

/-- Orders 2 and 3 of R455: the status that they give, for a command that does or does not spare the active slot. -/
def slotStatus (s : State) (slot : Nat) (writes : Bool) : Nat :=
  if s.fw.trial then stNotInState
  else if slot = 2 ∨ (writes = true ∧ slot = s.fw.active) then stLimit
  else stOk

/-- The boot record is written at each stage and unstage, and the command answered once it is stored; a write that is not made is WORN,
or NEEDS_REPAIR with both stores lost (R443, R447, R449, R450). -/
def writeBoot (s : State) (e : Env) (b : BootRec) : State :=
  let t := s.pst.nextTicket
  let s' := ownWrite s ixBoot b.toNat .none
  if s'.pst.nextTicket = t then reply s' e (if pstDead s' then stNeedsRepair else stWorn) []
  else replyAfter s' e [(t, 0)] stOk []

/-- A slot that is to be erased or written is no longer PENDING (R456). -/
def clearPending (s : State) (slot : Nat) : State :=
  let b := bootRecLatest s
  if b.pendingSlot = slot then ownWrite s ixBoot { b with pendingSlot := 3 }.toNat .none else s

/-- The slot is being erased: commands that read or write it are BUSY (R399). -/
def erasing (s : State) (slot : Nat) : Bool := s.long.erase.any fun x => x.1 == slot

/-- FW_WRITE (R455). -/
def fwWriteCmd : HostCmd :=
  { fwCmd 0x80 0 (fun p => slotOk p && resv0 p 1 7) with len := fun n => decide (17 ≤ n ∧ n ≤ 16 + 8944) }
def doFwWrite (e : Env) (p : List Byte) (s : State) : State :=
  receive (.fwWrite e p) e p fwWriteCmd (fun s =>
    let slot := fwSlot p
    let off := be p 8 8
    let data := p.drop 16
    let st := slotStatus s slot true
    if st ≠ stOk then reply s e st []
    else if off + data.length > areaSize slot then reply s e stLimit []
    else if erasing s slot then reply s e stBusy []
    else reply (clearPending (programBytes s slot off data) slot) e stOk []) s
def execFwWrite (e : Env) (p : List Byte) (s : State) : Out := hostCommand (.fwWrite e p) e s (doFwWrite e p)

/-- FW_READ (R454). -/
def fwReadOk (p : List Byte) : Bool :=
  slotOk p && resv0 p 1 7 && decide (1 ≤ be p 16 4 ∧ be p 16 4 ≤ 8960) && resv0 p 20 4
def doFwRead (e : Env) (p : List Byte) (s : State) : State :=
  receive (.fwRead e p) e p (fwCmd 0x81 24 fwReadOk) (fun s =>
    let slot := fwSlot p
    if be p 8 8 + be p 16 4 > areaSize slot then reply s e stLimit []
    else if erasing s slot then reply s e stBusy []
    else reply s e stOk (flashBytes s slot (be p 8 8) (be p 16 4))) s
def execFwRead (e : Env) (p : List Byte) (s : State) : Out := hostCommand (.fwRead e p) e s (doFwRead e p)

/-- The rows of FW_STAGE: its action is 0 erase, 1 stage, 2 unstage. -/
def fwStageCmd : HostCmd := fwCmd 0x82 8 fun p => slotOk p && decide (be p 1 1 ≤ 2) && resv0 p 2 6

/-- Erase (long): until it ends the slot reads as nothing in particular (R451). -/
def startErase (s : State) (e : Env) (slot : Nat) : State :=
  if s.long.erase.isSome then reply s e stBusy []
  else
    let s := (fillArea (clearPending s slot) slot (s.fresh + 2)).ticket
    { s with long := { s.long with erase := some (slot, e) } }

/-- What FW_STAGE does. -/
def serveStage (e : Env) (p : List Byte) (s : State) : State :=
  let slot := fwSlot p
  let action := be p 1 1
  let b := bootRecLatest s
  if action = 2 then
    if s.fw.trial then reply s e stNotInState []
    else if b.pendingSlot = slot then writeBoot s e { b with pendingSlot := 3 }
    else reply s e stOk []
  else
    let st := slotStatus s slot (action == 0)
    if st ≠ stOk then reply s e st []
    else if action = 0 then startErase s e slot
    else writeBoot s e { b with pendingSlot := slot }

def doFwErase (e : Env) (p : List Byte) (s : State) : State := receive (.fwErase e p) e p fwStageCmd (serveStage e p) s
def execFwErase (e : Env) (p : List Byte) (s : State) : Out := hostCommand (.fwErase e p) e s (doFwErase e p)
def doFwStage (e : Env) (p : List Byte) (s : State) : State := receive (.fwStage e p) e p fwStageCmd (serveStage e p) s
def execFwStage (e : Env) (p : List Byte) (s : State) : Out := hostCommand (.fwStage e p) e s (doFwStage e p)
def doFwUnstage (e : Env) (p : List Byte) (s : State) : State := receive (.fwUnstage e p) e p fwStageCmd (serveStage e p) s
def execFwUnstage (e : Env) (p : List Byte) (s : State) : Out := hostCommand (.fwUnstage e p) e s (doFwUnstage e p)

/-- FW_ERASE_DONE (R451). -/
def execFwEraseDone (s : State) : Out :=
  guardedBy true s fun s =>
    match s.long.erase with
    | none => s
    | some (slot, e) => reply { fillArea s slot 1 with long := { s.long with erase := none } } e stOk []

/-- The window of R460, in ticks, and `FW_CONFIRM_LEFT` (R466). -/
def confirmWindow : Nat := 60000000000
def confirmLeft (s : State) : Nat :=
  if s.fw.recovery || s.fw.windowDone then 0 else (confirmWindow - (s.now - s.fw.windowStart)) / 100000

/-- FW_STATUS (R454). -/
def doFwStatus (e : Env) (p : List Byte) (s : State) : State :=
  receive (.fwStatus e p) e p (fwCmd 0x83 0 fun _ => true) (fun s =>
    let b := bootRec s
    reply s e stOk
      ([BitVec.ofNat 8 s.fw.active, BitVec.ofNat 8 b.pendingSlot, BitVec.ofNat 8 (b2n s.fw.trial + 2 * b2n s.fw.recovery),
        BitVec.ofNat 8 b.result] ++ beBytes 4 (pstValue s ixRollback) ++ beBytes 4 s.fw.svn ++ beBytes 4 (confirmLeft s) ++
        beBytes 4 (pstValue s ixBoots))) s
def execFwStatus (e : Env) (p : List Byte) (s : State) : Out := hostCommand (.fwStatus e p) e s (doFwStatus e p)

/-- FW_MANIFEST (R454): a manifest whose counts are out of range is cut at what a reply holds. -/
def doFwManifest (e : Env) (p : List Byte) (s : State) : State :=
  receive (.fwManifest e p) e p (fwCmd 0x84 8 fun p => slotOk p && resv0 p 1 7) (fun s =>
    let slot := fwSlot p
    if erasing s slot then reply s e stBusy []
    else if flashLe s slot 0 4 ≠ manifestMagic then reply s e stLimit []
    else reply s e stOk (flashBytes s slot 0 (Nat.min 8960 (manifestSize s slot)))) s
def execFwManifest (e : Env) (p : List Byte) (s : State) : Out := hostCommand (.fwManifest e p) e s (doFwManifest e p)

/-! ### The internal test step and confirmation (R460, R461) -/

/-- Every port with signal has reached order 5 of R293, whatever the outcome, or has given up (R293, R460). -/
def portsSettled (s : State) : Bool :=
  (List.range 48).all fun n => let x := s.port n; !x.signal || x.reached || x.gaveUp

/-- The image confirms its health once every condition of R460 holds, within its window. -/
def tryConfirm (s : State) : State :=
  if s.fw.recovery || s.fw.windowDone || s.glb.imageConfirmed || !s.fw.testClean || s.glb.fnReset != 0 || !portsSettled s ||
    s.glb.state != .isolated || decide (s.now - s.fw.windowStart ≥ confirmWindow) then s
  else if s.fw.trial then
    let b := bootRecLatest s
    if b.trial then ownWrite s ixBoot { b with trial := false }.toNat .confirm else s
  else { s with glb := { s.glb with imageConfirmed := true }, fw := { s.fw with windowDone := true } }

/-- The registers of a core after the test step: unspecified, the token counters and the feed register too (R72, R461). -/
def scratchCore (c : Nat) (x : Core) : Core :=
  let gen := x.rf.gen + 1
  { x with
    rf := { v := [], s := [], x := [], p := [], gen := gen
            t := (List.range 64).map fun i => (i, (Config.unspecReg gen c 7 i).toNat % 65536) }
    feed := (List.range 256).map fun i => (Config.unspecReg gen c 6 i).setWidth 8 }

/-- What the step has written is unspecified: cluster memories, operand caches, register files and test scratch. -/
def testScratch (s : State) : State :=
  let s := loseStorage (loseStorage (loseStorage s 2) 3) 4
  forEach (List.range 480) (fun s c => s.modCore c (scratchCore c)) s

/-- The receive windows of the test step, in the test scratch of the stacks (R307, R461). -/
def testWindows : Tab (Nat × Nat) :=
  (List.range 256).filterMap fun w => (Config.testWindow w).map fun x =>
    let at_ := x.1 % 0x4000000
    (w, fastAddr (w % 20) (0x5EC000000 + at_), Nat.min x.2 (0x4000000 - at_))

/-- TEST_STEP_DONE: the step has run clean, or a check failed; a dip abandons it, and it runs at most nine times. -/
def execTestStepDone (failed : Option W32) (s : State) : Out :=
  guarded (.testStepDone failed) s fun s =>
    if s.glb.state ≠ .isolated ∨ s.pwr.dip = true ∨ s.fw.testClean = true ∨ s.fw.recovery = true ∨ 9 ≤ s.fw.testTries then s
    else
      let s := testScratch s
      match failed with
      | none => tryConfirm { s with fw := { s.fw with testClean := true }, lnk := { s.lnk with windows := [] } }
      | some w =>
        let s := { s with fw := { s.fw with testTries := s.fw.testTries + 1 } }
        match resOf w.toNat with
        | some r => countEvent s r
        | none => s

end Sys2Proof.Machine
end

