-- ==== Sys2Proof/Machine/FulRecv.lean ====
section
/-!
DEFINITION. What arrives on Fuelle sessions: the checks of R356, settlement (R345, R371), the recovery of groups (R348, R349),
contributions (R335, R336), ACK in both directions (R350), CLOSE and JOIN (R344, R357).
-/
namespace Sys2Proof.Machine

/-! ### Erasure coding (R348) -/

/-- The field's reducing polynomial, product and inverse. -/
def rsPoly : Nat := 0x11D
def rsMul (a b : Nat) : Nat := gfMul rsPoly 8 a b 0
def rsInv (a : Nat) : Nat := gfInv rsPoly a

/-- Coefficient of data packet i in parity packet j. -/
def rsCoeff (j i : Nat) : Nat := rsInv ((192 + j) ^^^ i)

/-- Sum of two byte rows of length n, the second times c. -/
def rsAdd (n c : Nat) (a b : List Nat) : List Nat := (List.range n).map fun k => a.getD k 0 ^^^ rsMul c (b.getD k 0)

/-- Parity packet j of a group's data packets. -/
def rsParity (psz j : Nat) (data : List (List Byte)) : List Byte :=
  ((List.range data.length).foldl
    (fun acc i => rsAdd psz (rsCoeff j i) acc ((data.getD i []).map BitVec.toNat)) (List.replicate psz 0)).map (BitVec.ofNat 8)

/-- Solves a Cauchy system, whose leading coefficients are never 0: rows of coefficients with their sums, for n unknowns. -/
def rsSolve (len : Nat) : Nat → List (List Nat × List Nat) → List (List Nat)
  | n + 1, (c, r) :: rows =>
    let inv := rsInv (c.headD 0)
    let cs := (c.drop 1).map (rsMul inv)
    let r := r.map (rsMul inv)
    let rest := rows.map fun x =>
      let h := x.1.headD 0
      ((List.range cs.length).map fun k => (x.1.drop 1).getD k 0 ^^^ rsMul h (cs.getD k 0), rsAdd len h x.2 r)
    let sol := rsSolve len n rest
    ((List.range sol.length).foldl (fun acc k => rsAdd len (cs.getD k 0) acc (sol.getD k [])) r) :: sol
  | _, _ => []

/-- The data packets of a group of which k packets are held. -/
def RxGroup.rebuild (g : RxGroup) : List Byte :=
  let have' := fun i => tfind g.packets i
  let missing := (List.range g.k).filter fun i => (have' i).isNone
  if missing.isEmpty then (List.range g.k).flatMap fun i => (have' i).getD []
  else
    let len := (g.packets.map fun e => e.2.length).foldl Nat.max 0
    let rows := ((g.packets.filter fun e => decide (g.k ≤ e.1)).take missing.length).map fun e =>
      let j := e.1 - g.k
      (missing.map (rsCoeff j),
        ((List.range g.k).filter fun i => (have' i).isSome).foldl
          (fun acc i => rsAdd len (rsCoeff j i) acc (((have' i).getD []).map BitVec.toNat)) (e.2.map BitVec.toNat))
    let sol := rsSolve len missing.length rows
    (List.range g.k).flatMap fun i =>
      match have' i with
      | some b => b
      | none => (sol.getD (missing.takeWhile (· != i)).length []).map (BitVec.ofNat 8)

/-! ### Streams -/

/-- Data of the groups recovered without a gap from group 0, and their number; the number of groups is the fuel. -/
def gapless (x : RxStream) : Nat → Nat → List Byte × Nat
  | 0, g => ([], g)
  | n + 1, g =>
    match tfind x.groups g with
    | some b => let r := gapless x n (g + 1); (b ++ r.1, r.2)
    | none => ([], g)

/-- An erased block of a stream: its place, its header and its cause. -/
structure Erased where
  place : Nat
  head : BlockHead
  cause : Erasure

/-- Decodes blocks laid back to back until `want` bytes have come: what has been decoded before the first erasure, and every erasure.
Of a stream that is not `whole`, a block whose end has not come is left for later; of a whole one it lies outside the input. `place` is
where `bs` begins in the stream; the number of blocks that may be read is the fuel. -/
def decodeBlocks (s : State) (whole : Bool) : Nat → Nat → Nat → List Byte → List Byte × List Erased
  | 0, _, _, _ => ([], [])
  | n + 1, place, want, bs =>
    let h := readHead (bs.take 16)
    let cut := decide (bs.length < 16) || (decide (16 + h.clen > bs.length) && !headLost h 4294967296)
    if want = 0 ∨ (whole = false ∧ cut = true) then ([], [])
    else if bs.length < 16 then ([], [⟨place, h, erasedMal⟩])
    else
      let next := place + 16 + h.clen
      match decodeBlock s h bs.length (bs.drop 16) with
      | .ok out =>
        let r := decodeBlocks s whole n next (want - out.length) (bs.drop (16 + h.clen))
        (out ++ r.1, r.2)
      | .error e =>
        if headLost h bs.length then ([], [⟨place, h, e⟩])
        else ([], ⟨place, h, e⟩ :: (decodeBlocks s whole n next (want - h.ulen) (bs.drop (16 + h.clen))).2)

/-- The blocks of a stream as far as its groups have come without a gap. -/
def decodeStream (s : State) (x : RxStream) (want : Nat) (whole : Bool) : List Byte × List Erased :=
  let bs := (gapless x x.groups.length 0).1
  decodeBlocks s whole (bs.length + 1) 0 want bs

/-- Uncompressed bytes of a partner slot's stream: a round's, and a snapshot's (R347, R357). -/
def slotBytes (f : FulSched) (p : Nat) (sponsor : Bool) : Nat :=
  ((f.pieces.filter fun x => x.partner == p).map fun x => (if sponsor then 1284 else 260) * x.rows).sum

/-- Every row factor of a contribution is finite and above 0 (R335). -/
def factorsFit (f : FulSched) (p : Nat) (bs : List Byte) : Bool :=
  (slotPieces f p).all fun x => (List.range x.2.rows).all fun k =>
    finitePos (BitVec.ofNat 32 (leNat ((bs.drop (x.1 + 4 * k)).take 4)))

/-- The stream of a session. -/
def FulCtx.stream (c : FulCtx) (round : Nat) (sponsor : Bool) : RxStream :=
  (c.rx.find? fun x => x.round == round && x.sponsor == sponsor).getD
    { round := round, sponsor := sponsor, groups := [], highest := 0, lastGroup := none, k := 0, complete := false, closed := false, counted := [], again := [] }

/-- Keeps a stream; a session remembers its last sixteen. -/
def FulCtx.putStream (c : FulCtx) (x : RxStream) : FulCtx :=
  { c with rx := (x :: c.rx.filter fun y => !(y.round == x.round && y.sponsor == x.sponsor)).take 16 }

/-- The stream is closed: its contribution has been discarded. -/
def closeStream (s : State) (ctx round : Nat) : State :=
  s.modFuelle ctx fun c =>
    { c with rx := c.rx.map fun x => if x.round = round ∧ x.sponsor = false then { x with closed := true, groups := x.groups.map fun g => (g.1, []) } else x
             groups := c.groups.filter fun g => !(g.round == round && !g.sponsor) }

/-- Receive slot of a round from a partner slot (R336). -/
def slotKey (f : FulSched) (p round : Nat) : Nat := 16 * p + round % f.rdepth

/-- A round takes its receive slot: of two, the older is discarded and counted, and one whose slot forms a round now is
discarded itself (R336, R337). The Bool says that the round holds the slot. -/
def claimSlot (s : State) (ctx : Nat) (f : FulSched) (p round : Nat) : State × Bool :=
  let key := slotKey f p round
  let take (s : State) : State := { s with ful := { s.ful with slots := tput s.ful.slots key { round := round, complete := false } } }
  match tfind s.ful.slots key with
  | none => (take s, true)
  | some c =>
    if c.round = round then (s, true)
    else if s.ful.eligible.any (fun e => e.1 == key) = true ∨ roundDiff c.round round > 0 then
      (countStale (closeStream s ctx round) (partnerIod f p), false)
    else (take (countStale (closeStream s ctx c.round) (partnerIod f p)), true)

/-- Packets of a stream that carry part of an erased block, first and last. -/
def Erased.packets (b : Erased) (psz : Nat) : Nat × Nat :=
  (b.place / psz, if headLost b.head 4294967296 then b.place / psz else (b.place + 15 + b.head.clen) / psz)

/-- A group some of whose packets count as erasures: the other data packets stay held (R328). -/
def reopenGroup (c : FulCtx) (x : RxStream) (lost : Nat → Bool) (g : Nat) (data : List Byte) : RxGroup :=
  let n := (data.length + c.pszUse - 1) / c.pszUse
  { round := x.round, sponsor := x.sponsor, group := g, k := n, m := c.m, lastGroup := x.lastGroup == some g
    packets := ((List.range n).filter fun i => !lost (g * x.k + i)).map fun i => (i, (data.drop (i * c.pszUse)).take c.pszUse) }

/-- Counts erasures of a die's Fuelle streams. -/
def countErased (s : State) (iod : Nat) (l : List Erased) : State := forEach l (fun s b => countErasure s 1 iod b.head b.cause) s

/-- The erasures of a stream count once for each time that a block is decoded (R322, R331). -/
def countStream (s : State) (ctx : Nat) (x : RxStream) (bad : List Erased) : State :=
  let fresh := bad.filter fun b => !x.counted.contains b.place
  if fresh.isEmpty then s
  else (countErased s (portOf ctx) fresh).modFuelle ctx fun c => c.putStream { x with counted := x.counted ++ fresh.map (·.place) }

/-- The erasures that packets sent again may mend: those of blocks that have not been asked for again, and not by their generation
(R327, R328; log 58). -/
def mendable (x : RxStream) (l : List Erased) : List Erased := l.filter fun b => b.cause.counter != 0 && !x.again.contains b.place

/-- Erased blocks of a Fuelle stream that packets may mend: each packet that carries part of one counts as an erasure, and its groups
are asked for again (R328, R335). -/
def eraseBlocks (s : State) (ctx : Nat) (x : RxStream) (l : List Erased) : State :=
  let c := s.fuelle ctx
  let lost (i : Nat) : Bool := l.any fun b => decide ((b.packets c.pszUse).1 ≤ i ∧ i ≤ (b.packets c.pszUse).2)
  let hit (g : Nat) : Bool := l.any fun b => decide ((b.packets c.pszUse).1 < (g + 1) * x.k ∧ g * x.k ≤ (b.packets c.pszUse).2)
  let again := (x.groups.filter fun g => hit g.1).map fun g => reopenGroup c x lost g.1 g.2
  let groups := c.groups ++ again
  let places := l.map (·.place)
  s.setFuelle ctx { c.putStream { x with
      again := x.again ++ places, counted := x.counted.filter fun n => !places.contains n
      groups := x.groups.filter fun g => !hit g.1 } with groups := groups.drop (groups.length - 2) }

/-- A contribution that fails a check after full recovery (R335). -/
def discardBad (s : State) (ctx p round : Nat) (f : FulSched) : State :=
  let key := slotKey f p round
  let s := closeStream s ctx round
  let s := s.modDie (portOf ctx) fun d => { d with bad := satInc 0xFFFF d.bad }
  if (tfind s.ful.slots key).any (fun c => c.round == round) then { s with ful := { s.ful with slots := tdel s.ful.slots key } } else s

/-- Every group has been recovered. -/
def RxStream.whole (x : RxStream) : Bool :=
  match x.lastGroup with
  | some n => (List.range (n + 1)).all fun g => (tfind x.groups g).isSome
  | none => false

/-- A group of a round has been recovered: its blocks are decoded into the receive slot, and the contribution is complete once
all have been (R335, R349). One that is lost by its generation counts as stale too (R327). -/
def landRound (s : State) (ctx round : Nat) : State :=
  match fulSched s with
  | none => s
  | some f =>
    let c := s.fuelle ctx
    let (s, mine) := claimSlot s ctx f c.slot round
    if !mine then s
    else
      let x := c.stream round false
      let want := slotBytes f c.slot false
      let (out, bad) := decodeStream s x want x.whole
      let base := match f.partners[c.slot]? with | some q => q.rxBase + round % f.rdepth * q.rxStride | none => 0
      let s := countStream (writeBytes s base (out.take want)) ctx x bad
      let x := (s.fuelle ctx).stream round false
      if !(mendable x bad).isEmpty then eraseBlocks s ctx x (mendable x bad)
      else if !x.whole then s
      else
        let s := if bad.any fun b => b.cause.counter == 0 then countStale s (partnerIod f c.slot) else s
        if bad.isEmpty = false ∨ out.length ≠ want ∨ factorsFit f c.slot out = false then discardBad s ctx c.slot round f
        else
          { (s.modFuelle ctx fun c => c.putStream { x with complete := true, groups := x.groups.map fun g => (g.1, []) }) with
            ful := { s.ful with slots := tput s.ful.slots (slotKey f c.slot round) { round := round, complete := true } } }

/-- A group of a snapshot has been recovered (R358). -/
def landSnapshot (s : State) (ctx round : Nat) : State :=
  match fulSched s with
  | none => s
  | some f =>
    let x := (s.fuelle ctx).stream round true
    let want := slotBytes f (s.fuelle ctx).slot true
    let (out, bad) := decodeStream s x want x.whole
    let s := countStream s ctx x bad
    let c := s.fuelle ctx
    let x := c.stream round true
    if !(mendable x bad).isEmpty then eraseBlocks s ctx x (mendable x bad)
    else if !x.whole then s
    else if bad.isEmpty = false ∨ out.length ≠ want then
      (s.setFuelle ctx (c.putStream { x with closed := true, groups := x.groups.map fun g => (g.1, []) })).modDie
        (portOf ctx) fun d => { d with bad := satInc 0xFFFF d.bad }
    else s.setFuelle ctx { c.putStream { x with complete := true } with installed := true }

/-! ### ACK (R347, R350) -/

/-- A 256-bit map of the indices held, bit i for index i, most significant byte first. -/
def heldMap (g : RxGroup) : List Byte := beBytes 32 ((g.packets.map fun e => 2 ^ e.1).sum)

/-- Packets of group g that are held, and the packets that it needs. -/
def groupHeld (c : FulCtx) (x : RxStream) (g : Nat) : RxGroup :=
  (c.groups.find? fun b => b.round == x.round && b.sponsor == x.sponsor && b.group == g).getD
    { round := x.round, sponsor := x.sponsor, group := g, k := x.k, m := 0, lastGroup := false, packets := [] }

/-- Need entries: incomplete groups below the highest seen, and the last group once it has been seen. -/
def needList (c : FulCtx) (x : RxStream) : List Byte :=
  let upTo := if x.lastGroup.isSome then x.highest + 1 else x.highest
  let open' := ((List.range upTo).filter fun g => (tfind x.groups g).isNone).take 204
  open'.flatMap fun g =>
    let b := groupHeld c x g
    beBytes 4 g ++ beBytes 2 (b.k - b.packets.length) ++ [0, 0] ++ heldMap b

/-- Sends ACK for a stream. -/
def sendAck (s : State) (ctx round : Nat) (sponsor : Bool) : State :=
  if fulSilent s ctx then s
  else
    let c := s.fuelle ctx
    let x := c.stream round sponsor
    let needs := if x.complete || x.closed then [] else needList c x
    let plain := beBytes 4 c.newestTick.toNat ++ beBytes 4 (s.now - c.newestAt) ++ beBytes 4 c.ceRx ++
      beBytes 4 (s.die (portOf ctx)).formed ++ beBytes 4 round ++ beBytes 4 (gapless x x.groups.length 0).2 ++
      [BitVec.ofNat 8 (b2n sponsor + 2 * b2n x.complete), 0] ++ beBytes 2 (needs.length / 40) ++ needs
    fulSend s ctx (fulBlank s ctx 3 plain)

/-! ### DATA and PARITY -/

/-- The packet is not held, its group not rebuilt, and its stream not closed (order 6 of R356). -/
def fulDuplicate (c : FulCtx) (f : FPkt) : Bool :=
  let x := c.stream f.round.toNat (bit f.flags 1)
  x.closed || x.complete || (tfind x.groups f.group.toNat).isSome ||
  (c.groups.any fun g => g.round == f.round.toNat && g.sponsor == bit f.flags 1 && g.group == f.group.toNat && (tfind g.packets f.index).isSome)

/-- A packet joins its group; the session keeps two group buffers, and a third takes that of the older (R349). -/
def FulCtx.hold (c : FulCtx) (f : FPkt) : FulCtx :=
  let mine := fun (g : RxGroup) => g.round == f.round.toNat && g.sponsor == bit f.flags 1 && g.group == f.group.toNat
  if c.groups.any mine then
    { c with groups := c.groups.map fun g => if mine g then { g with packets := tput g.packets f.index f.plain } else g }
  else
    { c with groups := (c.groups.drop (c.groups.length - 1)) ++
        [{ round := f.round.toNat, sponsor := bit f.flags 1, group := f.group.toNat, k := f.k, m := f.m, lastGroup := bit f.flags 0
           packets := [(f.index, f.plain)] }] }

/-- What the stream knows once the packet has come. -/
def RxStream.note (x : RxStream) (f : FPkt) : RxStream :=
  { x with highest := Nat.max x.highest f.group.toNat, k := Nat.max x.k f.k
           lastGroup := if bit f.flags 0 then some f.group.toNat else x.lastGroup }

/-- A packet's bytes lie in the staging area of its partner slot, 4 MiB of RXSTAGE (R340, R349); the place is free (log 59). -/
def stagePacket (s : State) (slot : Nat) (f : FPkt) : State :=
  match s.run.plan.bind (·.fuelle) with
  | some q =>
    let room := 0x400001 - Nat.min f.plain.length 0x400000
    writeBytes s (q.rxStage + 0x400000 * slot + Config.stagePlace f.round.toNat f.group.toNat f.index % room) f.plain
  | none => s

/-- Takes a DATA or PARITY packet. -/
def takePacket (s : State) (ctx : Nat) (f : FPkt) : State :=
  let c := s.fuelle ctx
  if fulDuplicate c f then
    discardReport (s.modDie (portOf ctx) fun d => { d with dups := satInc 0xFFFFFFFF d.dups }) (68 + 16 * portOf ctx)
  else
    let round := f.round.toNat
    let sponsor := bit f.flags 1
    let s := stagePacket s c.slot f
    let c := (c.putStream ((c.stream round sponsor).note f)).hold f
    let g := groupHeld c (c.stream round sponsor) f.group.toNat
    if g.packets.length < g.k then s.setFuelle ctx c
    else
      let x := c.stream round sponsor
      let fromParity := (List.range g.k).any fun i => (tfind g.packets i).isNone
      let c := { c.putStream { x with groups := tput x.groups g.group g.rebuild } with
        groups := c.groups.filter fun b => !(b.round == round && b.sponsor == sponsor && b.group == g.group) }
      let s := (s.setFuelle ctx c).modDie (portOf ctx) fun d =>
        { d with recovered := if fromParity then satInc 0xFFFFFFFF d.recovered else d.recovered }
      let s := if sponsor then landSnapshot s ctx round else landRound s ctx round
      sendAck s ctx round sponsor

/-! ### ACK received -/

/-- Need entries of an ACK: group, need, indices held. -/
def readNeeds (p : List Byte) : List (Nat × Nat × Nat) :=
  (List.range (be p 26 2)).map fun i => (be p (28 + 40 * i) 4, be p (28 + 40 * i + 4) 2, be p (28 + 40 * i + 8) 32)

/-- Data packets and groups of a round, and the packets of group g. -/
def TxRound.packets (x : TxRound) : Nat := (x.length + x.psz - 1) / x.psz
def TxRound.groupCount (x : TxRound) (k : Nat) : Nat := (x.packets + k - 1) / k
def TxRound.groupSize (x : TxRound) (k g : Nat) : Nat := Nat.min k (x.packets - g * k)

/-- The first `n` packets of a group that a map shows missing, data indices first. -/
def missingOf (size n map : Nat) : List Nat := ((List.range size).filter fun i => !map.testBit i).take n

/-- A round after an ACK that reports it: what is asked for again is queued, of each group once per SRTT. -/
def TxRound.reported (x : TxRound) (c : FulCtx) (now : Nat) (p : List Byte) : TxRound :=
  let x := { x with heardAt := now }
  if bit (be p 24 1) 1 then { x with complete := true, resend := [] }
  else
    let x := { x with done := Nat.max x.done (be p 20 4) }
    (readNeeds p).foldl
      (fun x n =>
        let sentAt := tfind x.resentAt n.1
        let soon := match sentAt with | some t => decide (now - t < c.srtt) | none => false
        if n.2.1 = 0 ∨ soon = true ∨ x.groupCount c.k ≤ n.1 then x
        else
          { x with resend := x.resend ++ (missingOf (x.groupSize c.k n.1 + c.m) n.2.1 n.2.2).map fun i => (n.1, i)
                   resentAt := tput x.resentAt n.1 now }) x

/-- The ACK reports this round. -/
def TxRound.named (x : TxRound) (p : List Byte) : Bool := x.round == be p 16 4 && x.sponsor == bit (be p 24 1) 0

/-- An ACK's need entries have queued packets of a round again. -/
def TxRound.needed (x : TxRound) (c : FulCtx) (now : Nat) (p : List Byte) : Bool :=
  x.named p && decide (x.resend.length < (x.reported c now p).resend.length)

/-- Takes an ACK: the estimator, the rate, FORMED and the round that it reports. A CE count that has risen since the last ACK is a CE
event (R354). -/
def takeAckPacket (s : State) (ctx : Nat) (f : FPkt) : State :=
  let p := f.plain
  let m := (s.now + 2 ^ 33 - be p 0 4 - be p 4 4) % 2 ^ 32
  let (c, jump) := (s.fuelle ctx).sample m
  let tx := (c.tx.map fun x => if x.named p then x.reported c s.now p else x).filter fun x => !x.complete
  let c := { c.paceBy s.now (decide (roundDiff (be p 8 4) c.ceSeen > 0)) (c.tx.any fun x => x.needed c s.now p) with
    tx := tx, formed := be p 12 4, ceSeen := be p 8 4, awaiting := if tx.any fun x => x.next != 0 then some s.now else none }
  let s := (s.setFuelle ctx c).modDie (portOf ctx) fun d => { d with jumps := if jump then satInc 0xFFFF d.jumps else d.jumps }
  scaleRates (abandonRounds s ctx) (portOf ctx)

/-! ### OFFER received -/

/-- The salt in the header of an OFFER. -/
def offerSalt (f : FPkt) : W64 := f.round ++ f.group

/-- Codec generations of an OFFER. -/
def offerGens (p : List Byte) : List Nat := (((p.drop 20).take 4).map BitVec.toNat).filter (· != 0)

/-- Settlement with the peer's OFFER (R345, R371): both directions start afresh under the new key. -/
def settleSession (s : State) (ctx : Nat) (f : FPkt) : State :=
  let c := s.fuelle ctx
  let long := c.profile == 1 || be f.plain 24 1 == 1
  let c := { c with
    saltPeer := offerSalt f, gen := settleGen (gensHeld s) (offerGens f.plain), pszUse := Nat.min c.psz (be f.plain 26 2)
    profileUse := b2n long, sponsorAble := bit (be f.plain 25 1) 1, formed := be f.plain 28 4
    txCount := 0, txEpochs := [], due := [], rxHi := none, rxSeen := 0, rxEpochs := [], awaiting := none
    rate := startRate long, joinAsked := (c.joinAsked || bit (be f.plain 25 1) 0) && canSponsor s }.freshEstimator
  let before := c.state
  let c := { c with state := if c.state = 1 then 2 else if c.state = 4 then (if c.before = 1 then 2 else c.before) else c.state }
  let s := dropUses (s.setFuelle ctx c) (portOf ctx) fun k => k.use == 3 && k.ctx == ctx
  let s := refreshFuelle (scaleRates s (portOf ctx)) ctx
  if c.state = before then s else raiseOpen s 11

/-- An OFFER whose tag has verified. In OPEN, PAUSED and JOINING a fresh salt is a rejoin: this end draws a salt of its own and
answers; an OFFER of the salt already settled is answered until a packet of the peer shows that it has settled too. -/
def takeOffer (s : State) (ctx : Nat) (f : FPkt) : State :=
  let c := s.fuelle ctx
  if be f.plain 16 4 ≠ (schedIdOf s).toNat then raiseStatus s 11 stPlanMismatch
  else if c.saltPeer = 0 then sendFulOffer (settleSession s ctx f) ctx
  else if c.saltPeer ≠ offerSalt f then sendFulOffer (settleSession (drawSalt s ctx) ctx f) ctx
  else if c.rxHi.isNone then sendFulOffer s ctx
  else s

/-! ### The checks of R356 -/

def fulDropCtx (s : State) (d : Nat) : State :=
  discardReport (s.modDie d fun x => { x with dropCtx := satInc 0xFFFF x.dropCtx }) (64 + 16 * d)
def fulDropTag (s : State) (d : Nat) : State :=
  discardReport (s.modDie d fun x => { x with dropTag := satInc 0xFFFF x.dropTag }) (65 + 16 * d)
def fulDropSeq (s : State) (d : Nat) : State :=
  discardReport (s.modDie d fun x => { x with dropSeq := satInc 0xFFFF x.dropSeq }) (66 + 16 * d)
def fulDropEpoch (s : State) (d : Nat) : State :=
  discardReport (s.modDie d fun x => { x with dropEpoch := satInc 0xFFFF x.dropEpoch }) (67 + 16 * d)

/-- Ranges of order 5, with those of the plaintexts of R347. -/
def fulFieldsOk (f : FPkt) : Bool :=
  let p := f.plain
  decide (f.resv = 0 ∧ f.flags < 4 ∧ f.len ≤ 8192 ∧ f.len = p.length) &&
  decide (bits f.seq.toNat 31 22 = bits f.epoch.toNat 9 0) &&
  (match f.typ with
   | 1 => decide (1 ≤ f.k ∧ f.k ≤ 192 ∧ f.m ≤ 64 ∧ f.index < f.k)
   | 2 => decide (1 ≤ f.k ∧ f.k ≤ 192 ∧ f.m ≤ 64 ∧ f.k ≤ f.index ∧ f.index < f.k + f.m)
   | 3 => decide (28 ≤ f.len ∧ be p 26 2 ≤ 204 ∧ f.len = 28 + 40 * be p 26 2 ∧ be p 24 1 < 4 ∧ be p 25 1 = 0) &&
          (List.range (be p 26 2)).all fun i => resv0 p (28 + 40 * i + 6) 2
   | 4 => decide (f.len = 36 ∧ be p 24 1 ≤ 1 ∧ be p 25 1 < 4) && resv0 p 34 2
   | 5 => decide (f.len = 0)
   | 6 => decide (f.len = 4)
   | _ => false)

/-- The tag of a received packet verifies under a key. -/
def fulTagOk (s : State) (ctx use epoch : Nat) (f : FPkt) : Bool :=
  let (_, tag) := gcmSeal (fulKey s ctx use false epoch) (nonceOf use (fulDir s ctx false) 0 epoch f.seq.toNat) (fulHeader f) f.plain
  BitVec.ofNat 128 (beNat tag) == f.tag

/-- The count of a packet: its epoch names its quarter of 2^22, its SEQ the place in it (R372). -/
def fulCount (f : FPkt) : Nat := f.epoch.toNat * 2 ^ 22 + f.seq.toNat % 2 ^ 22

/-- Order 3 of R356: the highest value accepted, and those accepted below it. -/
def windowOk (hi : Option Nat) (seen count : Nat) : Bool :=
  match hi with
  | none => true
  | some h => decide (h < count) || (decide (h ≤ count + 4096) && !seen.testBit (h - count))
def fulSeqOk (c : FulCtx) (count : Nat) : Bool := windowOk c.rxHi c.rxSeen count

/-- The window after an accepted value. -/
def windowSeen (hi : Option Nat) (seen count : Nat) : Nat :=
  match hi with
  | none => 1
  | some h => if h < count then (seen <<< (count - h) ||| 1) % 2 ^ 4097 else seen ||| 1 <<< (h - count)

/-- The window, the CE count and the echo after an accepted packet. -/
def FulCtx.accept (c : FulCtx) (count now : Nat) (f : FPkt) : FulCtx :=
  { c with
    rxHi := some (Nat.max (c.rxHi.getD count) count), rxSeen := windowSeen c.rxHi c.rxSeen count
    ceRx := if f.ce then (c.ceRx + 1) % 2 ^ 32 else c.ceRx, newestTick := f.tick, newestAt := now }

/-- A packet that has passed order 4. -/
def fulDispatch (s : State) (ctx : Nat) (f : FPkt) : State :=
  match f.typ with
  | 3 => takeAckPacket s ctx f
  | 5 => fulFree s ctx false
  | 6 => if canSponsor s then s.modFuelle ctx fun c => { c with joinAsked := true } else sendFulOffer s ctx
  | _ => takePacket s ctx f

/-- A packet waits in C3; one that finds it full is discarded (R379, R389). -/
def waitC3 (s : State) (f : FPkt) : State :=
  let n := (s.ether f.port).c3.length
  if n < 2048 then pauseAt (s.modEther f.port fun e => { e with c3 := e.c3 ++ [f] }) f.port 3 2048 (n + 1)
  else dropQueue s f.port

/-- A packet whose key is not held asks for it and waits. Between an erasure of the derived keys and the first receiving key that is
back, it is discarded (R359, R385). -/
def awaitKey (s : State) (f : FPkt) (r : KdfReq) : State :=
  if (s.fuelle f.context).erased then askKey s f.port r else waitC3 (askKey s f.port r) f

/-- Opens a received packet under a key: lengths that are not allowed fail order 5, a packet under a spent key waits, and order 4 is the
tag (R356, R374, R381). -/
def fulOpened (s : State) (f : FPkt) (name : KeyName) (trial : State) (epoch : Nat) (k : State → State) : State :=
  let r := requestKey s f.port name 32 f.plain.length
  if !requestOk 32 f.plain.length then fulDropTag r.1 f.port
  else if !r.2 then waitC3 r.1 f
  else if !fulTagOk trial f.context name.use epoch f then countTagFail (fulDropTag r.1 f.port) f.port
  else k r.1

/-- The window of OFFERs under a salt of the peer: SEQ counts from 0 for each salt (R371). -/
def FulCtx.offerWindow (c : FulCtx) (salt : W64) : Option Nat × Nat :=
  match tfind c.offerSeen salt.toNat with
  | some w => (some w.1, w.2)
  | none => (none, 0)

/-- The window of a salt and the CE count after an OFFER that has been accepted. -/
def FulCtx.acceptOffer (c : FulCtx) (f : FPkt) : FulCtx :=
  let w := c.offerWindow (offerSalt f)
  let n := f.seq.toNat
  { c with
    offerSeen := tput c.offerSeen (offerSalt f).toNat (Nat.max (w.1.getD n) n, windowSeen w.1 w.2 n)
    ceRx := if f.ce then (c.ceRx + 1) % 2 ^ 32 else c.ceRx }

/-- An OFFER: its key has the sender's salt alone. -/
def receiveOffer (s : State) (f : FPkt) : State :=
  let c := s.fuelle f.context
  let salt := offerSalt f
  let w := c.offerWindow salt
  if f.epoch ≠ 0 then fulDropEpoch s f.port
  else if !windowOk w.1 w.2 f.seq.toNat then fulDropSeq s f.port
  else if s.keys.cur.isNone || salt == 0 then fulDropTag s f.port
  else if c.offerRx ≠ salt then awaitKey s f (.offerRx f.context salt)
  else
    fulOpened s f (offerName f.context false salt) (s.modFuelle f.context fun c => { c with saltPeer := salt }) 0 fun s =>
      let s := s.modFuelle f.context fun c => c.acceptOffer f
      if !fulFieldsOk f then fulDropTag s f.port else takeOffer s f.context f

/-- A packet under the session key. -/
def receiveSession (s : State) (f : FPkt) : State :=
  let c := s.fuelle f.context
  let epoch := f.epoch.toNat
  if !(rxEpochsOf c.rxHi).contains epoch then fulDropEpoch s f.port
  else if !fulSeqOk c (fulCount f) then fulDropSeq s f.port
  else if c.saltPeer = 0 then countTagFail (fulDropTag s f.port) f.port
  else if !c.rxEpochs.contains epoch then awaitKey (refreshFuelle s f.context) f (.fuelleRx f.context epoch)
  else
    fulOpened s f (fuelleName f.context false epoch) s epoch fun s =>
      let s := refreshFuelle (s.modFuelle f.context fun c => c.accept (fulCount f) s.now f) f.context
      if !fulFieldsOk f then fulDropTag s f.port else fulDispatch s f.context f

/-- The checks of R356 on a packet that has passed orders 1 to 5 of R391; during a reset of EXCHANGE or CIPHER it is lost (R359). -/
def fulCheck (s : State) (f : FPkt) : State :=
  let c := s.fuelle f.context
  if s.inReset 4 ∨ s.inReset 6 then s
  else if f.version ≠ 1 ∨ f.context ≥ 16384 ∨ portOf f.context ≠ f.port ∨ c.state = 0 ∨ c.peerIp ≠ f.srcIp ∨ c.peerPort ≠ f.srcPort then
    fulDropCtx s f.port
  else if f.typ = 4 then receiveOffer s f
  else receiveSession s f

/-- The packets of C3 are checked again, in the order in which they came; those whose key is still missing go on waiting. -/
def releaseC3 (s : State) (port : Nat) : State :=
  let l := (s.ether port).c3
  let s := forEach l fulCheck (s.modEther port fun e => { e with c3 := [] })
  releaseAt s port 3 2048 (s.ether port).c3.length

/-- A Fuelle packet reaches its port. -/
def fulArrive (f : FPkt) (s : State) : State :=
  if passes s f.port = false ∨ s.glb.state = .cold then s else fulCheck (countRx s f.port) f

/-- The six packet rows (R346). -/
def execFuelleData (f : FPkt) (s : State) : Out := guardedBy (decide (f.port < 2)) s (fulArrive f)
def execFuelleParity (f : FPkt) (s : State) : Out := guardedBy (decide (f.port < 2)) s (fulArrive f)
def execFuelleAck (f : FPkt) (s : State) : Out := guardedBy (decide (f.port < 2)) s (fulArrive f)
def execFuelleOffer (f : FPkt) (s : State) : Out := guardedBy (decide (f.port < 2)) s (fulArrive f)
def execFuelleClose (f : FPkt) (s : State) : Out := guardedBy (decide (f.port < 2)) s (fulArrive f)
def execFuelleJoin (f : FPkt) (s : State) : Out := guardedBy (decide (f.port < 2)) s (fulArrive f)

end Sys2Proof.Machine
end

