-- ==== Sys2Proof/Machine/FulSend.lean ====
section
/-!
DEFINITION. What Fuelle sends and when: paced packets (R353), the timers of R344, R350 and R376, the rounds of EXCHANGE (R333,
R334), formation (R338), snapshots (R357) and joins (R358).
-/
namespace Sys2Proof.Machine

/-! ### Snapshots (R357) -/

/-- Address of a tensor's snapshot. -/
def snapshotAddr (f : FulSched) (te : FulTensor) : Nat := f.joinBase + te.joinOff

/-- The snapshot of every tensor with an entry: anchor, row factors of u, codes of u. -/
def takeSnapshot (s : State) (f : FulSched) : State :=
  let s := forEach f.tensors (fun s te =>
    match entryTensor s te with
    | none => s
    | some t =>
      let base := snapshotAddr f te
      let s := writeBytes s base (readBytes s (anchorAddr te.stack t 0) (4 * t.n))
      let s := writeBytes s (base + 4 * t.n) ((List.range t.rows).flatMap fun r => readBytes s (factorAddr te.stack t r 2) 4)
      writeBytes s (base + 4 * t.n + 4 * t.rows) (readBytes s (uAddr te.stack t 0) t.n)) s
  { s with ful := { s.ful with snapshot := some (Nat.max (s.die 0).formed (s.die 1).formed) } }

/-- Tensor entry, descriptor and snapshot address of a piece. -/
def pieceTensor (s : State) (f : FulSched) (x : FulPiece) : Option (FulTensor × TensorDesc × Nat) :=
  (f.tensors[x.tentry]?).bind fun te => (entryTensor s te).map fun t => (te, t, snapshotAddr f te)

/-- The coded snapshot of a partner slot's pieces: the anchors in blocks of kind 5, then the factors and codes of u in
blocks of kind 6. -/
def snapshotBlocks (s : State) (f : FulSched) (p gen : Nat) : List (List Byte × Bool) :=
  let pieces := (slotPieces f p).map (·.2)
  let anchors := pieces.flatMap fun x =>
    match pieceTensor s f x with
    | some (_, _, base) => readBytes s (base + 1024 * x.first) (1024 * x.rows)
    | none => []
  let us := pieces.flatMap fun x =>
    match pieceTensor s f x with
    | some (_, t, base) =>
      readBytes s (base + 4 * t.n + 4 * x.first) (4 * x.rows) ++
      readBytes s (base + 4 * t.n + 4 * t.rows + 256 * x.first) (256 * x.rows)
    | none => []
  codeStream s gen 5 anchors ++ codeStream s gen 6 us

/-- The coded stream that a round's packets carry, its blocks back to back: of a snapshot, or out of the transmit slot. -/
def roundStream (s : State) (f : FulSched) (c : FulCtx) (x : TxRound) : List Byte :=
  if x.sponsor then (snapshotBlocks s f c.slot x.gen).flatMap (·.1) else loadStream s x.base x.blocks

/-! ### Packets of a round (R348) -/

/-- Data packet i of a round. -/
def dataPacket (s : State) (f : FulSched) (c : FulCtx) (x : TxRound) (i : Nat) : List Byte :=
  ((roundStream s f c x).drop (i * x.psz)).take x.psz

/-- Packet `index` of group g. -/
def groupPacket (s : State) (f : FulSched) (c : FulCtx) (x : TxRound) (g index : Nat) : List Byte :=
  let size := x.groupSize c.k g
  if index < size then dataPacket s f c x (g * c.k + index)
  else rsParity x.psz (index - size) ((List.range size).map fun i => dataPacket s f c x (g * c.k + i))

/-- Group and index of the n-th packet of a round, each group's data packets before its parity packets. -/
def packetAt (c : FulCtx) (x : TxRound) (n : Nat) : Nat × Nat :=
  let g := Nat.min (n / (c.k + c.m)) (x.groupCount c.k - 1)
  (g, n - g * (c.k + c.m))

/-- Packets of a round with its parity packets. -/
def TxRound.total (c : FulCtx) (x : TxRound) : Nat := x.packets + x.groupCount c.k * c.m

/-- Sends one packet of a round. -/
def sendRoundPacket (s : State) (ctx : Nat) (f : FulSched) (x : TxRound) (g index : Nat) : State :=
  let c := s.fuelle ctx
  let size := x.groupSize c.k g
  let p := fulBlank s ctx (if index < size then 1 else 2) (groupPacket s f c x g index)
  let last := g + 1 == x.groupCount c.k
  fulSend s ctx { p with
    round := BitVec.ofNat 32 x.round, group := BitVec.ofNat 32 g, index := index, k := size, m := c.m
    flags := b2n last + 2 * b2n x.sponsor }

/-- Replaces a round of a session. -/
def setRound (s : State) (ctx : Nat) (x : TxRound) : State :=
  s.modFuelle ctx fun c => { c with tx := c.tx.map fun y => if y.round = x.round ∧ y.sponsor = x.sponsor then x else y }

/-- Sends a packet of a round, which then is as `x`; from the first packet that no ACK has answered on, an ACK is awaited (R350, R376). -/
def sendOfRound (s : State) (ctx : Nat) (f : FulSched) (x : TxRound) (a : Nat × Nat) : State :=
  let s := (setRound s ctx { x with heardAt := s.now }).modFuelle ctx fun c => { c with awaiting := some (c.awaiting.getD s.now) }
  sendRoundPacket s ctx f x a.1 a.2

/-- The packet that is due: a re-send, or the next packet of the oldest round that has one. -/
def pacedPacket (s : State) (ctx : Nat) (f : FulSched) : State :=
  let c := s.fuelle ctx
  match c.tx.find? fun x => !x.resend.isEmpty with
  | some x =>
    let s := s.modDie (portOf ctx) fun d => { d with resent := satInc 0xFFFFFFFF d.resent }
    sendOfRound s ctx f { x with resend := x.resend.drop 1 } (x.resend.headD (0, 0))
  | none =>
    match c.tx.find? fun x => decide (x.next < x.total c) with
    | some x => sendOfRound s ctx f { x with next := x.next + 1 } (packetAt c x x.next)
    | none => s

/-- FUELLE_PACED_SEND (R353). -/
def execFuellePacedSend (ctx : Nat) (s : State) : Out :=
  guardedBy (decide (ctx < 16384)) s fun s =>
    match fulSched s with
    | none => s
    | some f =>
      if (s.fuelle ctx).state ≠ 2 ∨ (s.fuelle ctx).saltPeer = 0 ∨ fulQuiet s ctx = true ∨ (s.ether (portOf ctx)).nextHop = 0 then s
      else
        let s := abandonRounds s ctx
        let c := s.fuelle ctx
        if c.canSeal = false ∧ alarmMeets s c.txCount = false then keyWait s ctx else pacedPacket s ctx f

/-- FUELLE_ACK_TIMER (R350): while packets of the session arrive, the streams are reported. -/
def execFuelleAckTimer (ctx : Nat) (s : State) : Out :=
  guardedBy (decide (ctx < 16384)) s fun s =>
    let c := s.fuelle ctx
    if c.state = 0 ∨ c.rxHi.isNone = true ∨ s.now - c.newestAt > ackInterval c then s
    else forEach c.rx (fun s x => sendAck s ctx x.round x.sponsor) s

/-- FUELLE_OFFER_TIMER (R344): OFFER until the peer's has been authenticated; then a joiner asks with JOIN. -/
def execFuelleOfferTimer (ctx : Nat) (s : State) : Out :=
  guardedBy (decide (ctx < 16384)) s fun s =>
    let c := s.fuelle ctx
    if c.state = 0 ∨ c.state = 4 then s
    else if c.saltPeer = 0 then sendFulOffer s ctx
    else if c.state = 3 ∧ c.installed = false ∧ fulQuiet s ctx = false then
      fulSend s ctx (fulBlank s ctx 6 (beBytes 4 (roundBase s)))
    else s

/-- A round of which everything has been sent, and which no ACK has named for the RTO in force (R350). -/
def TxRound.overdue (x : TxRound) (c : FulCtx) (now : Nat) : Bool :=
  decide (x.total c ≤ x.next) && x.resend.isEmpty && decide (x.done < x.groupCount c.k ∧ now - x.heardAt ≥ c.rto * c.rtoScale)

/-- FUELLE_RTO_EXPIRY (R350): every packet of the lowest group not reported is due again, RTO doubles, and the rate falls (R353). -/
def execFuelleRtoExpiry (ctx : Nat) (s : State) : Out :=
  guardedBy (decide (ctx < 16384)) s fun s =>
    let s := abandonRounds s ctx
    let c := s.fuelle ctx
    match c.tx.find? fun x => x.overdue c s.now with
    | some x =>
      let s := setRound s ctx { x with
        resend := (List.range (x.groupSize c.k x.done + c.m)).map fun i => (x.done, i)
        resentAt := tput x.resentAt x.done s.now }
      scaleRates (s.modFuelle ctx fun c => { c.paceBy s.now false true with rtoScale := Nat.min 16 (2 * c.rtoScale) }) (portOf ctx)
    | none => s

/-- No ACK has come for 16 × RTO without doubling (R376). -/
def ackLost (c : FulCtx) (now : Nat) : Bool :=
  match c.awaiting with
  | some t => decide (now - t ≥ 16 * c.rto)
  | none => false

/-- FUELLE_REKEY (R376): no ACK for 16 × RTO; a fresh salt is offered, as on a rejoin. -/
def execFuelleRekey (ctx : Nat) (s : State) : Out :=
  guardedBy (decide (ctx < 16384)) s fun s =>
    let c := s.fuelle ctx
    if (c.state ≠ 2 ∧ c.state ≠ 3) ∨ c.saltPeer = 0 ∨ ackLost c s.now = false then s
    else
      let s := s.setFuelle ctx { c with saltPeer := 0, txEpochs := [], due := [], rxEpochs := [], awaiting := none }
      let s := dropUses s (portOf ctx) fun k => k.use == 3 && k.ctx == ctx
      let s := s.modCipher (portOf ctx) fun x => { x with rekeys := satInc 0xFFFF x.rekeys }
      sendFulOffer (drawSalt s ctx) ctx

/-! ### EXCHANGE (R332 to R334) -/

/-- A session of a partner slot that takes rounds. -/
def takesRounds (e : Nat × FulCtx) : Bool := e.2.state == 2 || (e.2.state == 4 && e.2.before == 2)

/-- The round's coded stream of one partner slot, queued in the slot's sessions; the round whose outbound slot it takes is
abandoned (R352). -/
def queueSlot (s : State) (f : FulSched) (r p : Nat) : State :=
  match f.partners[p]?, s.fctx.find? fun e => takesRounds e && e.2.slot == p with
  | some q, some e =>
    let o := r % f.odepth
    let start := q.txBase + o * q.txStride
    let base := start + pad64 start
    let blocks := codeStream s e.2.gen 6 (slotStream s f p o)
    let lens := blocks.map fun b => b.1.length
    let s := storeStream s base blocks
    forEach (s.fctx.filter fun x => takesRounds x && x.2.slot == p) (fun s x =>
      let c := s.fuelle x.1
      let old := c.tx.filter fun y => !y.sponsor && (y.round + f.odepth) % 2 ^ 32 == r
      let y : TxRound := { round := r, sponsor := false, base := base, length := lens.sum, blocks := lens, gen := e.2.gen, psz := c.pszUse, next := 0
                           resend := [], done := 0, resentAt := [], heardAt := s.now, complete := false }
      let s := s.modDie (portOf x.1) fun d => { d with rounds := satAdd 0xFFFF d.rounds old.length }
      s.setFuelle x.1 { c with tx := (c.tx.filter fun y => y.sponsor || (y.round + f.odepth) % 2 ^ 32 != r) ++ [y] }) s
  | _, _ => s

/-- The snapshot's streams start on the sessions that asked; their blocks are counted (R331). -/
def startSponsors (s : State) (f : FulSched) (q : Nat) : State :=
  forEach (s.fctx.filter fun e => takesRounds e && e.2.joinAsked) (fun s e =>
    let c := s.fuelle e.1
    let blocks := snapshotBlocks s f c.slot c.gen
    let lens := blocks.map fun b => b.1.length
    let y : TxRound := { round := q, sponsor := true, base := 0, length := lens.sum, blocks := lens, gen := c.gen, psz := c.pszUse
                         next := 0, resend := [], done := 0, resentAt := [], heardAt := s.now, complete := false }
    (countBlocks s blocks).setFuelle e.1 { c with tx := c.tx ++ [y], joinAsked := false }) s

/-- A sponsor stream still reads the snapshot. -/
def snapshotRead (s : State) : Bool := s.fctx.any fun e => e.2.tx.any fun x => x.sponsor

/-- The delta passes, the snapshot where one is asked for, and the coding of every partner slot. -/
def queueRound (s : State) (f : FulSched) (r : Nat) : State :=
  let asked := (s.fctx.any fun e => takesRounds e && e.2.joinAsked) && f.joinBase != 0 && !snapshotRead s
  let s := forEach f.tensors (fun s te => deltaPass s te (r % f.odepth)) s
  let s := if asked then takeSnapshot s f else s
  let s := forEach (List.range f.partners.length) (fun s p => queueSlot s f r p) s
  let s := if asked then startSponsors s f (s.ful.snapshot.getD 0) else s
  let s := forEach (s.fctx.map (·.1)) abandonRounds s
  { s with ful := { s.ful with sent := r :: (s.ful.sent.filter (· != r)).take 65535, queued := some r }
           run := { s.run with exchangeDone := true } }

/-- ROUND_QUEUED (R334): every open session's queue holds the round of the step. -/
def execRoundQueued (s : State) : Out :=
  guardedBy true s fun s =>
    match fulSched s, sendRound s with
    | some f, some r =>
      if runInProgress s ∧ (s.glb.state = .running ∨ s.isx.parking = true) ∧ s.run.phase = 5 ∧ s.run.abandoned = false ∧
          s.run.exchangeDone = false ∧ s.inReset 4 = false then queueRound s f r
      else s
    | _, _ => s

/-- ROUND_READY (R338): both dies have formed the closed round. -/
def execRoundReady (s : State) : Out :=
  guardedBy true s fun s =>
    match s.ful.closed with
    | some r =>
      if runInProgress s ∧ s.ful.ready = false ∧ s.run.abandoned = false ∧ s.inReset 4 = false ∧ s.run.phase ≤ 2 then
        let s := formDelta s
        forEach [0, 1] (fun s d => s.modDie d fun x => { x with formed := r }) { s with ful := { s.ful with ready := true } }
      else s
    | none => s

/-! ### The end of a join (R358) -/

/-- The complete snapshots that have come: context, partner slot, q_s, bytes. -/
def snapshotsHeld (s : State) (f : FulSched) : List (Nat × Nat × Nat × List Byte) :=
  (s.fctx.filter fun e => e.2.joining).filterMap fun e =>
    (e.2.rx.find? fun x => x.sponsor && x.complete).map fun x =>
      (e.1, e.2.slot, x.round, (decodeStream s x (slotBytes f e.2.slot true) true).1)

/-- Rows of the pieces before a piece of a slot. -/
def rowsBefore (off : Nat) : Nat := off / 260

/-- Where a snapshot covers a row of a tensor entry: anchor, row factor of u, codes of u. -/
def snapshotRow (f : FulSched) (p ti row : Nat) (bs : List Byte) : Option (List Byte × List Byte × List Byte) :=
  let all := ((slotPieces f p).map fun x => x.2.rows).sum
  ((slotPieces f p).find? fun x => x.2.tentry == ti && decide (x.2.first ≤ row ∧ row < x.2.first + x.2.rows)).map fun x =>
    let k := row - x.2.first
    let n := rowsBefore x.1
    let u := 1024 * all + x.1
    ((bs.drop (1024 * (n + k))).take 1024, (bs.drop (u + 4 * k)).take 4, (bs.drop (u + 4 * x.2.rows + 256 * k)).take 256)

/-- The snapshot that gives a row: the highest q_s, and of those the lowest partner slot. -/
def bestRow (f : FulSched) (held : List (Nat × Nat × Nat × List Byte)) (ti row : Nat) : Option (List Byte × List Byte × List Byte) :=
  (held.foldl
    (fun (acc : Option (Nat × Nat × (List Byte × List Byte × List Byte))) h =>
      match snapshotRow f h.2.1 ti row h.2.2.2 with
      | none => acc
      | some v =>
        match acc with
        | none => some (h.2.2.1, h.2.1, v)
        | some b =>
          let d := roundDiff h.2.2.1 b.1
          if d > 0 ∨ (d = 0 ∧ h.2.1 < b.2.1) then some (h.2.2.1, h.2.1, v) else acc) none).map (·.2.2)

/-- Installs one row: anchor and master bank C, u, and the working copy. -/
def installRow (s : State) (te : FulTensor) (t : TensorDesc) (row : Nat) (v : List Byte × List Byte × List Byte) : State :=
  let s := writeBytes s (anchorAddr te.stack t (256 * row)) v.1
  let s := writeBytes s (masterAddr te.stack t (bankOf s te.stack) (256 * row)) v.1
  let s := writeBytes s (factorAddr te.stack t row 2) v.2.1
  let s := writeBytes s (uAddr te.stack t (256 * row)) v.2.2
  rederiveRows s te.stack t (bankOf s te.stack) row 1

/-- Installs every row that a snapshot covers. -/
def installSnapshots (s : State) (f : FulSched) (held : List (Nat × Nat × Nat × List Byte)) : State :=
  forEach (List.range f.tensors.length) (fun s ti =>
    match f.tensors[ti]? with
    | none => s
    | some te =>
      match entryTensor s te with
      | none => s
      | some t => forEach (List.range t.rows) (fun s row =>
          match bestRow f held ti row with | some v => installRow s te t row v | none => s) s) s

/-- Rows of each tensor entry that no stream delivered (R358). -/
def missedRows (s : State) (f : FulSched) (held : List (Nat × Nat × Nat × List Byte)) : List (Nat × Nat) :=
  ((List.range f.tensors.length).map fun ti =>
    (ti, match (f.tensors[ti]?).bind (entryTensor s) with
      | some t => ((List.range t.rows).filter fun row => (bestRow f held ti row).isNone).length
      | none => 0)).filter fun x => x.2 != 0

/-- The highest q_s installed. -/
def bestRound (held : List (Nat × Nat × Nat × List Byte)) : Option Nat :=
  held.foldl (fun acc h => match acc with | none => some h.2.2.1 | some b => some (if roundDiff h.2.2.1 b > 0 then h.2.2.1 else b)) none

/-- BASE after a join: q + 1 − (x div H), x the first positive multiple of H at or after the current step. -/
def joinBaseOf (q step h : Nat) : Nat :=
  let x := Nat.max 1 ((step + h - 1) / h)
  (q + 1 + 2 ^ 32 - x % 2 ^ 32) % 2 ^ 32

/-- A new round base: the rounds sent under the old one are formed no more (R339). -/
def newBase (s : State) (base : Nat) : State :=
  if base = roundBase s then s else ownWriteIfNew { s with ful := { s.ful with sent := [] } } ixRoundBase base .none

/-- The join ends: rows are installed, the base is written, and the sessions become OPEN. Event 12 reports it with the rows that no
stream delivered, which `missed` holds (log 22). -/
def endJoin (s : State) (p : Plan) (f : FulSched) : State :=
  let held := snapshotsHeld s f
  let s := installSnapshots { s with ful := { s.ful with missed := missedRows s f held } } f held
  let s :=
    match bestRound held with
    | some q => newBase { s with ful := { s.ful with joinBest := some q } } (joinBaseOf q s.run.step p.h)
    | none => s
  let s := forEach (s.fctx.filter fun e => e.2.joining) (fun s e =>
    let s := s.modFuelle e.1 fun c =>
      { (if c.state = 3 then { c with state := 2 } else { c with before := 2 }) with rx := c.rx.filter fun x => !x.sponsor }
    raiseOpen s 11) s
  raiseOpen { s with ful := { s.ful with joinSince := none } } 12

/-- JOIN_END (R358): every JOINING session has its snapshot. -/
def execJoinEnd (s : State) : Out :=
  guardedBy true s fun s =>
    match s.run.plan, fulSched s with
    | some p, some f =>
      if s.ful.joinSince.isSome ∧ (s.fctx.any fun e => e.2.joining) = true ∧
          (s.fctx.all fun e => !e.2.joining || e.2.installed) = true then endJoin s p f
      else s
    | _, _ => s

/-- JOIN_LIMIT_EXPIRY (R358): the ticks of `FUL_JOIN_LIMIT` have passed, as it stood when the join began (R361). -/
def execJoinLimitExpiry (s : State) : Out :=
  guardedBy true s fun s =>
    match s.run.plan, fulSched s, s.ful.joinSince with
    | some p, some f, some t => if s.now - t ≥ s.ful.joinFor then endJoin s p f else s
    | _, _, _ => s

end Sys2Proof.Machine
end

