-- ==== Sys2Proof/Machine/Ingest.lean ====
section
/-!
DEFINITION. Ingest streams (R406 to R409): READs, arriving records, NOTE tokens, stalls, and the commands ING_STATUS, ING_SEEK
and ING_ENDPOINT.
-/
namespace Sys2Proof.Machine

/-- The plan's entry of a stream. -/
def streamEntry (s : State) (k : Nat) : Option StreamEntry := s.run.plan.bind fun p => p.streams[k]?

/-- The engine of a die fetches (R37, R388, R480). -/
def ingestRuns (s : State) (port : Nat) : Bool :=
  (s.glb.state == .ready || s.glb.state == .running || s.glb.state == .quiesced) && !s.inReset 5 &&
  !s.pwr.holdIod.getLsbD port && (s.ether port).nextHop != 0 && passes s port

/-- Byte offset of a record in its object. -/
def recordOffset (e : StreamEntry) (n : Nat) : Nat := n % e.orecs * e.rbytes

/-- The lowest record within the ring that has neither landed nor been asked for. -/
def nextRecord (e : StreamEntry) (x : IngStream) : Option Nat :=
  ((List.range (Nat.min e.rslots (x.landed.length + x.reads.length + 1))).map (x.cursor + ·)).find? fun n =>
    !x.landed.contains n && !x.reads.any fun r => r.record == n

/-- The 40-byte READ packet: its header without CHECK, and the CRC-32C of it (R408). -/
def readPacket (e : StreamEntry) (id cookie offset : Nat) : List Byte :=
  let h := [1, 1] ++ beBytes 2 e.context ++ beBytes 4 id ++ beBytes 8 cookie ++ beBytes 8 e.object.toNat ++ beBytes 8 offset ++ beBytes 4 e.rbytes
  h ++ beBytes 4 (crc32c h)

/-- Sends a READ for a record of a stream, the `tries`-th. -/
def sendRead (s : State) (k : Nat) (e : StreamEntry) (n tries : Nat) (landed : List (Nat × Nat)) : State :=
  let x := s.stream k
  let port := e.context / 0x2000 % 2
  let id := x.nextReq % 2 ^ 32
  let s := s.modStream k fun x =>
    { x with nextReq := (id + 1) % 2 ^ 32
             reads := (x.reads.filter fun r => r.record != n) ++ [{ reqid := BitVec.ofNat 32 id, record := n, tries := tries, sentAt := s.now, landed := landed }] }
  let wire := readPacket e id x.cookie.toNat (recordOffset e n)
  sendFrame s port (.read port x.saddr x.sport e.lport e.context (BitVec.ofNat 32 id) x.cookie e.object
    (BitVec.ofNat 64 (recordOffset e n)) e.rbytes (s.ether port).nextHop wire
    (netHead s port 2 (classDscp s port 2) false (ownIp s port x.saddr) x.saddr e.lport x.sport wire))

/-- Asks for records until 16 READs are outstanding; the number of READs that may be sent is the fuel (R408). -/
def fetchRecords : Nat → State → Nat → StreamEntry → State
  | 0, s, _, _ => s
  | n + 1, s, k, e =>
    let x := s.stream k
    if x.cookie = 0 ∨ x.stalled = true ∨ x.reads.length ≥ 16 ∨ ingestRuns s (e.context / 0x2000 % 2) = false then s
    else
      match nextRecord e x with
      | none => s
      | some r => fetchRecords n (sendRead s k e r 1 []) k e

/-- Every stream fetches what it may. -/
def pumpIngest (s : State) : State :=
  forEach (List.range s.ing.length) (fun s k => match streamEntry s k with | some e => fetchRecords 16 s k e | none => s) s

/-- The stream stalls: event 13 (R408). -/
def stallStream (s : State) (k : Nat) : State := raiseOpen (s.modStream k fun x => { x with stalled := true, reads := [] }) 13

/-! ### Arrivals (R409) -/

/-- What is left of byte ranges (start, end) once a range has been cut out. -/
def cutRange (pieces : List (Nat × Nat)) (iv : Nat × Nat) : List (Nat × Nat) :=
  (pieces.flatMap fun p => [(p.1, Nat.min p.2 iv.1), (Nat.max p.1 iv.2, p.2)]).filter fun p => decide (p.1 < p.2)

/-- Raises NOTE for the records that have landed in cursor order; the number of records landed is the fuel (R407). -/
def noteRecords : Nat → State → Nat → StreamEntry → State
  | 0, s, _, _ => s
  | n + 1, s, k, e =>
    let x := s.stream k
    if x.landed.contains x.noted then
      let s := s.modStream k fun x => { x with noted := x.noted + 1 }
      noteRecords n (if s.inReset 1 then s else addToken s e.noteCore e.noteTok) k e
    else s

/-- The open stream of a die that a packet names, with its entry. -/
def packetStream (s : State) (q : IPkt) : Option (Nat × StreamEntry) :=
  (List.range s.ing.length).findSome? fun k =>
    (streamEntry s k).bind fun e => if e.context = q.context ∧ q.context / 0x2000 = q.port then some (k, e) else none

def dropIngest (s : State) (port : Nat) : State :=
  discardReport (s.modEther port fun e => { e with ingStranger := satInc 0xFFFF e.ingStranger }) (14 + 16 * port)
def dropIngestCrc (s : State) (port : Nat) : State :=
  discardReport (s.modEther port fun e => { e with ingCrc := satInc 0xFFFF e.ingCrc }) (15 + 16 * port)

/-- CHECK of a packet: the CRC-32C over bytes 0 to 35 and the payload. -/
def ingestCheck (q : IPkt) : Nat :=
  crc32c ([BitVec.ofNat 8 q.version, BitVec.ofNat 8 q.typ] ++ beBytes 2 q.context ++ beBytes 4 q.reqid.toNat ++ beBytes 8 q.cookie.toNat ++
    beBytes 8 q.object.toNat ++ beBytes 8 q.offset.toNat ++ beBytes 4 q.length.toNat ++ q.payload)

/-- The READ of a stream that a packet answers, where R409 accepts it. -/
def readOf (s : State) (q : IPkt) : Option (Nat × StreamEntry × IngRead) :=
  (packetStream s q).bind fun ke =>
    let x := s.stream ke.1
    if x.saddr = q.srcIp ∧ x.sport = q.srcPort ∧ x.cookie = q.cookie ∧ q.version = 1 then
      (x.reads.find? fun r => r.reqid == q.reqid).map fun r => (ke.1, ke.2, r)
    else none

/-- The packet's range lies within the READ. -/
def readRangeOk (e : StreamEntry) (r : IngRead) (q : IPkt) : Bool :=
  let o := recordOffset e r.record
  decide (1 ≤ q.payload.length ∧ q.payload.length ≤ 8192 ∧ q.length.toNat = q.payload.length ∧ o ≤ q.offset.toNat ∧
    q.offset.toNat + q.payload.length ≤ o + e.rbytes) && q.object == e.object

/-- Lands the bytes of a packet that have not landed before; a record that is complete is noted in its turn. -/
def landRecord (s : State) (k : Nat) (e : StreamEntry) (r : IngRead) (q : IPkt) : State :=
  let a := q.offset.toNat - recordOffset e r.record
  let fresh := r.landed.foldl cutRange [(a, a + q.payload.length)]
  let s := forEach fresh (fun s p => writeBytes s (recordAddr e r.record + p.1) ((q.payload.drop (p.1 - a)).take (p.2 - p.1))) s
  let landed := r.landed ++ fresh
  if (landed.map fun p => p.2 - p.1).sum = e.rbytes then
    let s := s.modStream k fun x => { x with landed := x.landed ++ [r.record], reads := x.reads.filter fun y => y.reqid != r.reqid }
    fetchRecords 16 (noteRecords (s.stream k).landed.length s k e) k e
  else s.modStream k fun x => { x with reads := x.reads.map fun y => if y.reqid = r.reqid then { y with landed := landed } else y }

/-- The range that an ERROR names lies within the READ. -/
def errorRangeOk (e : StreamEntry) (r : IngRead) (q : IPkt) : Bool :=
  let o := recordOffset e r.record
  decide (o ≤ q.offset.toNat ∧ q.offset.toNat + q.length.toNat ≤ o + e.rbytes) && q.object == e.object

/-- Takes an ingest packet by the checks of R409: DATA lands, and an ERROR stalls the stream (R408). -/
def takeIngest (s : State) (q : IPkt) : State :=
  match readOf s q with
  | none => dropIngest s q.port
  | some (k, e, r) =>
    if q.typ = 2 ∧ readRangeOk e r q = true then
      if ingestCheck q ≠ q.check.toNat then dropIngestCrc s q.port else landRecord s k e r q
    else if q.typ = 3 ∧ errorRangeOk e r q = true then
      if ingestCheck q ≠ q.check.toNat then dropIngestCrc s q.port else stallStream s k
    else dropIngest s q.port

/-- The stack of the record that a packet belongs to serves no access (R480, R485). -/
def landWaits (s : State) (q : IPkt) : Bool :=
  match readOf s q with
  | some (_, e, r) => placeHeld s (recordAddr e r.record)
  | none => false

/-- An ingest packet waits in C2, in order, while the stack of its record serves no access; one that finds C2 full is discarded (R389,
R390). -/
def queueIngest (s : State) (q : IPkt) : State :=
  let n := (s.ether q.port).c2.length
  if n = 0 ∧ landWaits s q = false then takeIngest s q
  else if n < 512 then pauseAt (s.modEther q.port fun e => { e with c2 := e.c2 ++ [q] }) q.port 2 512 (n + 1)
  else dropQueue s q.port

/-- The packets of C2 land, up to the first that must wait on. -/
def drainC2 (s : State) (port : Nat) : State :=
  let l := (s.ether port).c2
  if l.isEmpty then s
  else
    let s := forEach l queueIngest (s.modEther port fun e => { e with c2 := [] })
    releaseAt s port 2 512 (s.ether port).c2.length

/-- An ingest packet reaches its port: order 5 of R391, and then R409. -/
def ingestArrive (q : IPkt) (s : State) : State :=
  if passes s q.port = false ∨ s.glb.state = .cold then s
  else
    let s := countRx s q.port
    if !(openPorts s q.port).contains q.dport then dropPort s q.port else queueIngest s q

/-- INGEST_DATA and INGEST_ERROR (R408, R409). -/
def execIngestData (q : IPkt) (s : State) : Out := guardedBy (decide (q.port < 2)) s (ingestArrive q)
def execIngestError (q : IPkt) (s : State) : Out := guardedBy (decide (q.port < 2)) s (ingestArrive q)

/-- INGEST_READ_TIMEOUT (R408): 2 ms after its READ, the record is asked for again whole, at most eight times in all. -/
def execIngestReadTimeout (stream : Nat) (record : Nat) (s : State) : Out :=
  guardedBy (decide (stream < 2048)) s fun s =>
    match streamEntry s stream, (s.stream stream).reads.find? fun r => r.record == record with
    | some e, some r =>
      if ingestRuns s (e.context / 0x2000 % 2) = false ∨ s.now - r.sentAt < 200000 then s
      else if r.tries ≥ 8 then stallStream s stream
      else sendRead s stream e record (r.tries + 1) r.landed
    | _, _ => s

/-! ### Commands (R400) -/

/-- The stream is one of the committed plan. -/
def hasStream (s : State) (p : List Byte) : Bool := (streamEntry s (be p 0 2)).isSome

/-- ING_STATUS. -/
def doIngStatus (e : Env) (p : List Byte) (s : State) : State :=
  receive (.ingStatus e p) e p (plainCmd 0xC0 inIRUQ 8 fun p => resv0 p 2 6) (fun s =>
    if !hasStream s p then reply s e stBadLength []
    else
      let x := s.stream (be p 0 2)
      let st := if x.stalled then 2 else if x.cookie ≠ 0 ∧ x.reads.isEmpty = false then 1 else 0
      reply s e stOk (beBytes 8 x.cursor ++ [BitVec.ofNat 8 st, 0, 0, 0] ++ beBytes 4 x.landed.length)) s
def execIngStatus (e : Env) (p : List Byte) (s : State) : Out := hostCommand (.ingStatus e p) e s (doIngStatus e p)

/-- ING_SEEK (R407). -/
def doIngSeek (e : Env) (p : List Byte) (s : State) : State :=
  receive (.ingSeek e p) e p (plainCmd 0xC1 inR 16 fun p => resv0 p 2 6) (needing [5] e fun s =>
    if !hasStream s p then reply s e stBadLength []
    else
      let c := be p 8 8
      let s := s.modStream (be p 0 2) fun x => { x with cursor := c, noted := c, landed := [], reads := [], stalled := false }
      pumpIngest (reply s e stOk [])) s
def execIngSeek (e : Env) (p : List Byte) (s : State) : Out := hostCommand (.ingSeek e p) e s (doIngSeek e p)

/-- ING_ENDPOINT: the endpoint of a stream; in ISOLATED it stands for the plan that is committed next. -/
def doIngEndpoint (e : Env) (p : List Byte) (s : State) : State :=
  receive (.ingEndpoint e p) e p (plainCmd 0xC2 inIR 32 fun p => decide (be p 0 2 < 2048) && resv0 p 20 4) (needing [5] e fun s =>
    if s.run.plan.isSome ∧ hasStream s p = false then reply s e stBadLength []
    else
      let s := s.modStream (be p 0 2) fun x =>
        { x with sport := be p 2 2, saddr := BitVec.ofNat 128 (be p 4 16), cookie := BitVec.ofNat 64 (be p 24 8), given := true, reads := [] }
      pumpIngest (reply s e stOk [])) s
def execIngEndpoint (e : Env) (p : List Byte) (s : State) : Out := hostCommand (.ingEndpoint e p) e s (doIngEndpoint e p)

end Sys2Proof.Machine
end

