-- ==== Sys2Proof/Machine/Urgent.lean ====
section
/-!
DEFINITION. The urgent fast path: QUIESCE, RESUME and FENCE_LINKS (R31, R33, R306, R404, R405), and the end of parking.
-/
namespace Sys2Proof.Machine

/-- An urgent opcode: it is served while MGMT is in reset. -/
def urgentCmd (opcode length : Nat) (ok : List Byte → Bool) : HostCmd :=
  { opcode := opcode, states := inAll, len := fun n => n == length, ok := ok, urgent := true }

/-- `GLB_STATE` (R29). -/
def stateWord (s : State) : Nat :=
  (if pstLatest s ixExchLocked = 0 then 0 else 2 ^ 24) + b2n s.glb.imageConfirmed * 2 ^ 23 + s.glb.fnReset.toNat * 2 ^ 16 +
  (match s.glb.prior with | some d => devCode d | none => 0) * 16 + devCode s.glb.state

/-- The replies to QUIESCE and RESUME carry `GLB_STATE` (R33, log 13). -/
def replyState (s : State) (e : Env) (status : Nat) : State := reply s e status (beBytes 4 (stateWord s))

/-- QUIESCED is entered: engines park (R31, R404), the results of a core at its boundary complete (R108), and wait limits stop
(R97). -/
def enterQuiesced (s : State) : State :=
  let s := settleAll s
  let met := match s.run.plan with | some p => s.run.phase != 7 && phaseEnded s p | none => false
  stopWaits { s with
    glb := { s.glb with prior := some s.glb.state, state := .quiesced }, isx := { s.isx with parking := true }
    run := { s.run with switchMet := met } }

/-- QUIESCE (R33): the reply leaves when every engine has parked. -/
def doQuiesce (e : Env) (p : List Byte) (s : State) : State :=
  receive (.quiesce e p) e p (urgentCmd 1 0 fun _ => true) (fun s =>
    let waitFor (s : State) : State := { s with isx := { s.isx with quiesceWait := s.isx.quiesceWait ++ [e] } }
    match s.glb.state with
    | .isolated => waitFor (enterQuiesced s)
    | .ready => waitFor (enterQuiesced s)
    | .running => waitFor (enterQuiesced s)
    | _ => if s.isx.parking then waitFor s else replyState s e stOk) s
def execQuiesce (e : Env) (p : List Byte) (s : State) : Out := hostCommand (.quiesce e p) e s (doQuiesce e p)

/-- The state of PRIOR is entered again (R31): a run that must end does so, a plan that must go is released (R213, R305), swaps
that QUIESCED held are made (R413), engines run their NOP descriptors on (R173), and links send again (R306). -/
def leaveQuiesced (s : State) : State :=
  let s := { s with glb := { s.glb with state := s.glb.prior.getD .isolated, prior := none }, run := { s.run with switchMet := false } }
  let s := startWaits s
  let s := endDue s
  tryCommit (swapsOutsideRun (flushAll (runAllNops s)))

/-- RESUME takes effect: NOT_IN_STATE outside QUIESCED. -/
def resumeNow (s : State) (e : Env) : State :=
  if s.glb.state = .quiesced then replyState (leaveQuiesced s) e stOk else replyState s e stNotInState

/-- RESUME (R33, R405): held while parking lasts. -/
def doResume (e : Env) (p : List Byte) (s : State) : State :=
  receive (.resume e p) e p (urgentCmd 2 0 fun _ => true) (fun s =>
    if s.glb.state = .quiesced ∧ s.isx.parking = true then { s with isx := { s.isx with resumeWait := s.isx.resumeWait ++ [e] } }
    else resumeNow s e) s
def execResume (e : Env) (p : List Byte) (s : State) : Out := hostCommand (.resume e p) e s (doResume e p)

/-- Ports of a mask of 64 bits. -/
def maskPorts (m : Nat) : List Nat := (List.range 48).filter fun n => bit m n

/-- FENCE_LINKS holds a port DOWN with reason 4. -/
def holdPort (s : State) (n : Nat) : State :=
  let x := s.port n
  let s := if x.state = 0 then s else downLink s n
  s.modPort n fun x => { x with state := 0, reason := 4 }

/-- FENCE_LINKS (R306). -/
def doFenceLinks (e : Env) (p : List Byte) (s : State) : State :=
  receive (.fenceLinks e p) e p (urgentCmd 3 8 fun p => decide (be p 0 2 = 0)) (fun s =>
    reply (forEach (maskPorts (be p 0 8)) holdPort s) e stOk []) s
def execFenceLinks (e : Env) (p : List Byte) (s : State) : Out := hostCommand (.fenceLinks e p) e s (doFenceLinks e p)

/-- Every engine has parked: no core has a bundle to end, and a switch or a commit that QUIESCE met has completed (R108, R243,
R266). -/
def parked (s : State) : Bool :=
  ((List.range 480).all fun c => !(coreRuns s c && (s.core c).bun.isSome)) &&
  !(match s.run.plan with | some p => switchOpen s p | none => false)

/-- PARKING_END (R404, R405): the replies to QUIESCE leave, and a RESUME held meanwhile acts. -/
def execParkingEnd (s : State) : Out :=
  guarded .parkingEnd s fun s =>
    if s.isx.parking && parked s then
      let quiesces := s.isx.quiesceWait
      let resumes := s.isx.resumeWait
      let s := { s with isx := { s.isx with parking := false, quiesceWait := [], resumeWait := [] } }
      forEach resumes resumeNow (forEach quiesces (fun s e => replyState s e stOk) s)
    else s

end Sys2Proof.Machine
end

