-- ==== Sys2Proof/Machine/LinkCmds.lean ====
section
/-!
DEFINITION. The link commands LNK_RETRAIN, LNK_UNFENCE and LNK_IDENT (R295, R305, R400).
-/
namespace Sys2Proof.Machine

/-- A port retrains: one that FENCE_LINKS holds stays held, and one fenced for exhausted lanes or lasting logic stays fenced. -/
def retrainPort (s : State) (n : Nat) : State :=
  let x := s.port n
  if x.state = 0 ∨ (x.state = 5 ∧ (x.reason = 4 ∨ x.reason = 6 ∨ x.reason = 7)) then s else dropLink s n

/-- A mask of ports. -/
def maskOk (p : List Byte) : Bool := decide (be p 0 2 = 0)

/-- LNK_RETRAIN. -/
def doLnkRetrain (e : Env) (p : List Byte) (s : State) : State :=
  receive (.lnkRetrain e p) e p (plainCmd 0xB0 inIRUQ 8 maskOk) (needing [3] e fun s =>
    reply (forEach (maskPorts (be p 0 8)) retrainPort s) e stOk []) s
def execLnkRetrain (e : Env) (p : List Byte) (s : State) : Out := hostCommand (.lnkRetrain e p) e s (doLnkRetrain e p)

/-- A port that FENCE_LINKS or R419 holds is released and retrains. -/
def unfencePort (s : State) (n : Nat) : State :=
  s.modPort n fun x =>
    if x.reason = 4 then { x with state := 0, reason := 0, restarts := 0, retrains := satInc 0xFFFF x.retrains } else x

/-- LNK_UNFENCE: a quarantined port among those named answers QUARANTINED (R295). -/
def doLnkUnfence (e : Env) (p : List Byte) (s : State) : State :=
  receive (.lnkUnfence e p) e p (plainCmd 0xB1 inIRUQ 8 maskOk) (needing [3] e fun s =>
    if (maskPorts (be p 0 8)).any (fun n => (s.port n).state == 6) = true then reply s e stQuarantined []
    else reply (forEach (maskPorts (be p 0 8)) unfencePort s) e stOk []) s
def execLnkUnfence (e : Env) (p : List Byte) (s : State) : Out := hostCommand (.lnkUnfence e p) e s (doLnkUnfence e p)

/-- LNK_IDENT: the neighbour's identity message; STALE where none has come. -/
def doLnkIdent (e : Env) (p : List Byte) (s : State) : State :=
  receive (.lnkIdent e p) e p (plainCmd 0xB2 inIRUQN 8 fun p => decide (be p 0 1 < 48) && resv0 p 1 7) (fun s =>
    match (s.port (be p 0 1)).nbr with
    | some i => reply s e stOk i.raw
    | none => reply s e stStale []) s
def execLnkIdent (e : Env) (p : List Byte) (s : State) : Out := hostCommand (.lnkIdent e p) e s (doLnkIdent e p)

end Sys2Proof.Machine
end

