-- ==== Sys2Proof/Machine/Power.lean ====
section
/-!
DEFINITION. Clocks, rails, heat and full resets (R471 to R487), the boot that follows a reset (R31, R457), and the end of the
confirmation window (R462).
-/
namespace Sys2Proof.Machine

/-! ### Full reset (R482 to R484) -/

/-- The tiers lose their contents: code 1, and code 2 of VDD_STKL or VDD_STK. -/
def tiersLost (code rail : Nat) : Bool := code == 1 || (code == 2 && (rail == 3 || rail == 6))

/-- A core after a full reset: its registers are unspecified (R72, R483). -/
def bootCore (c : Nat) (x : Core) : Core :=
  { Core.reset with rf := { v := [], s := [], x := [], p := [], t := [], gen := x.rf.gen + 1 }, feed := (resetCore c x).feed }

/-- What a full reset keeps: the persistent store with the write in flight, the flash, the RST_ registers, `PWR_DIPS`, the ticks,
and what lies outside the device's logic. -/
def clearAll (s : State) : State :=
  { State.reset with
    pending := s.pending, egress := s.egress, fresh := s.fresh, mem := s.mem, gens := s.gens
    glb := { Glb.reset with state := .cold }
    pst := { Pst.reset with
      phys := s.pst.phys, table := s.pst.table, inFlight := s.pst.inFlight.map (fun w => { w with hook := .none })
      queue := s.pst.queue.filter fun w => w.hook == .exchLocked
      retry0 := s.pst.retry0, retry1 := s.pst.retry1, nextTicket := s.pst.nextTicket }
    fw := { Fw.reset with flash := s.fw.flash, base := s.fw.base }
    pwr := { Pwr.reset with
      tick := s.pwr.tick, refOk := s.pwr.refOk, refPresent := s.pwr.refPresent, unlocked := s.pwr.unlocked, low := s.pwr.low
      dip := s.pwr.dip, dipStart := s.pwr.dipStart, recovered := s.pwr.recovered, temps := s.pwr.temps, resetHeld := true
      holdUntil := s.pwr.holdUntil, lostSlots := s.pwr.lostSlots
      rstCode := s.pwr.rstCode, rstRail := s.pwr.rstRail, rstFull := s.pwr.rstFull }
    cores := (List.range 480).map fun c => (c, bootCore c (s.core c)) }

/-- The RST_ registers after a source has been recorded (R484, R487). -/
def recordSource (s : State) (code rail : Nat) (again : Bool) : State :=
  { s with pwr := { s.pwr with
    rstCode := code, rstRail := rail
    rstFull := if code = 1 then 0 else if again then s.pwr.rstFull else satInc 0xFFFF s.pwr.rstFull } }

/-- A held reset is released no sooner than `ticks` from now (R482). -/
def extendHold (s : State) (ticks : Nat) : State :=
  { s with pwr := { s.pwr with holdUntil := Nat.max s.pwr.holdUntil (s.now + ticks) } }

/-- Ticks of 1 µs and of 10 ms. -/
def resetHold : Nat := 100
def railHold : Nat := 1000000

/-- The tiers lose their contents, the records in them included (R483). -/
def loseTiers (s : State) : State :=
  let s := loseStorage (loseStorage s 0) 1
  { s with pwr := { s.pwr with lostSlots := 3 } }

/-- A source of a full reset: the reset starts, or a held one is extended (R484). -/
def fullReset (s : State) (code rail : Nat) : State :=
  let held := s.pwr.resetHeld
  let lost := tiersLost code rail
  let s := if held then s else loseStorage (loseStorage (clearAll s) 2) 3
  let s := extendHold (if lost then loseTiers s else s) resetHold
  if held ∧ s.pwr.rstCode ≤ code then s else recordSource s code rail held

/-- A rail is below its warning level, and the device in a dip. -/
def railLow (s : State) (rail : Nat) : State := { s with pwr := { s.pwr with low := s.pwr.low ||| 1 <<< rail, dip := true } }

/-- The write in flight stops part way on both dies, no rule saying where. -/
def tearFreely (s : State) : State :=
  if s.pst.inFlight.isNone then s
  else (tearWrite s ((Config.freeByte s.fresh 0).toNat % 5) ((Config.freeByte s.fresh 1).toNat % 5)).ticket

/-- POR_N (R482): POR_N low, or VDD_AUX below its reset level, which stops a write after so many fields on each die. -/
def execPorN (auxLow : Bool) (torn : Nat × Nat) (s : State) : Out :=
  guarded (.porN auxLow torn) s fun s =>
    if auxLow then fullReset (railLow (tearWrite s torn.1 torn.2) 0) 1 0 else fullReset s 1 0xF

/-- SYSRST_N (R482). -/
def execSysrstN (s : State) : Out := guarded .sysrstN s fun s => fullReset s 5 0xF

/-! ### PLLs (R485) -/

/-- Every PLL of R468. -/
def allPlls : List (PllDomain × Nat) :=
  [PllDomain.compute, .mortar, .stackLogic, .link, .ethernet, .ioDie].flatMap fun d => (List.range d.count).map fun n => (d, n)

/-- A lost lock that taints a step. -/
def taintingPll (x : PllDomain × Nat) : Bool := x.1 == .compute || x.1 == .mortar || x.1 == .stackLogic

/-- PLLs lose lock: a clock is out of range, and the step is tainted as in a dip. -/
def losePlls (s : State) (l : List (PllDomain × Nat)) : State :=
  let l := l.filter fun x => !s.pwr.unlocked.contains x
  let s := { s with pwr := { s.pwr with unlocked := s.pwr.unlocked ++ l } }
  if l.any taintingPll then taint s else s

/-- RAIL_RESET (R482): a rail below its reset level; VDD_AUX makes it a reset of code 1, and VDD_PLL takes the lock of every PLL
(R485). -/
def execRailReset (rail : Nat) (s : State) : Out :=
  guarded (.railReset rail) s fun s =>
    if rail = 0 then fullReset (railLow (tearFreely s) 0) 1 0 else
      let s := fullReset (railLow s rail) 2 rail
      if rail = 1 then losePlls s allPlls else s

/-- A minor alarm of code 2 on a device that is not held in reset. -/
def clockAlarm (s : State) : State := if s.glb.state = .cold then s else minorAlarm s 2

/-- PLL_LOCK_LOSS (R485). -/
def execPllLockLoss (dom : PllDomain) (inst : Nat) (s : State) : Out :=
  guarded (.pllLockLoss dom inst) s fun s =>
    if s.pwr.unlocked.contains (dom, inst) then s else clockAlarm (losePlls s [(dom, inst)])

/-- The reference and VDD_PLL let a PLL lock. -/
def pllFed (s : State) : Bool := s.pwr.refPresent && s.pwr.refOk && !s.pwr.low.getLsbD 1

/-- Number of the die of a PLL, as R486 numbers dies (R22). -/
def pllDie : PllDomain → Nat → Nat
  | .compute, n => n
  | .mortar, n => n
  | .stackLogic, n => 12 + n
  | .link, n => if n < 4 then 10 else if 44 ≤ n then 11 else (n - 4) / 4
  | .ethernet, n => 10 + n
  | .ioDie, n => 10 + n

/-- REFLECT needs the clock: Mortar, stack logic, links and the I/O dies (R419, R425, R468). -/
def reflectClock (dom : PllDomain) : Bool := dom != .compute && dom != .ethernet

/-- PLL_FAIL (R485): out of lock for 1 ms though it is fed. -/
def execPllFail (dom : PllDomain) (inst : Nat) (s : State) : Out :=
  guarded (.pllFail dom inst) s fun s =>
    if s.pwr.unlocked.contains (dom, inst) && pllFed s then
      needsRepairAt s (8 * 2 ^ 24 + 0x200 + pllDie dom inst) (reflectClock dom)
    else s

/-! ### REFCLK (R471, R473) -/

/-- REFCLK_LOSS: REFCLK is out of range or absent; every PLL loses lock. -/
def execRefclkLoss (absent : Bool) (s : State) : Out :=
  guarded (.refclkLoss absent) s fun s =>
    if !s.pwr.refOk && (!absent || !s.pwr.refPresent) then s
    else
      let s := losePlls { s with pwr := { s.pwr with refOk := false, refPresent := s.pwr.refPresent && !absent } } allPlls
      clockAlarm s

/-- REFCLK_ABSENT_TIMEOUT: absent for 10 µs. With the I/O-die PLL out of lock too, nothing clocks the store, and a write in flight
stops part way (R443). -/
def execRefclkAbsentTimeout (s : State) : Out :=
  guarded .refclkAbsentTimeout s fun s =>
    if s.pwr.refPresent then s else fullReset (if storeClocked s then s else tearFreely s) 4 0xF

/-- REFCLK_RETURN: the tick counters go on from their values, and a write that the store could not start goes on (R448). -/
def execRefclkReturn (s : State) : Out :=
  guardedBy true s fun s => startWrite { s with pwr := { s.pwr with refOk := true, refPresent := true } }

/-! ### Supply dips (R476, R477) -/

/-- DIP_ENTRY: the rails below warning, from the first of them on; in a dip, the ones that are below it now, of which a rail that is
back in range is none though the dip goes on (R476, R486). With VDD_PLL among them every PLL loses lock (R485). -/
def execDipEntry (low : BitVec 9) (s : State) : Out :=
  guarded (.dipEntry low) s fun s =>
    let first := !s.pwr.dip
    if low = 0 ∧ first = true then s
    else
      let pll := low.getLsbD 1 && !s.pwr.low.getLsbD 1
      let s := { s with pwr := { s.pwr with low := low, dip := true, dipStart := if first then s.now else s.pwr.dipStart } }
      let s := if first then taint s else s
      if pll then clockAlarm (losePlls s allPlls) else s

/-- Ticks of 2 ms. -/
def dipLimit : Nat := 200000

/-- DIP_RECOVERY: every rail has recovered; a dip that the device has lived through counts, and writes that waited start. -/
def execDipRecovery (s : State) : Out :=
  guarded .dipRecovery s fun s =>
    let lived := s.pwr.dip && !s.pwr.resetHeld
    if lived && decide (s.now - s.pwr.dipStart > dipLimit) then s
    else
      let s := if s.pwr.dip then extendHold s railHold else s
      startWrite { s with pwr := { s.pwr with
        low := 0, dip := false, recovered := if lived then satInc 0xFFFF s.pwr.recovered else s.pwr.recovered } }

/-- DIP_TIMEOUT: a rail is still not back after 2 ms. -/
def execDipTimeout (rail : Nat) (s : State) : Out :=
  guarded (.dipTimeout rail) s fun s =>
    if s.pwr.dip && decide (s.now - s.pwr.dipStart ≥ dipLimit) then fullReset s 3 rail else s

/-! ### Heat (R480) -/

/-- A measure applies from one level on until the sensor falls below another; levels in sixteenths of a degree. -/
def measure (was : Bool) (temp : Int) (on off : Int) : Bool := decide (on ≤ temp) || (was && decide (off ≤ temp))

/-- Bit n of a field of measures. -/
def setBitTo {w : Nat} (v : BitVec w) (n : Nat) (b : Bool) : BitVec w := if b then v ||| (1#w <<< n) else v &&& ~~~(1#w <<< n)

/-- A junction outside −25 to 115 °C, in sixteenths of a degree (R382). -/
def outOfRange (temp : Int) : Bool := decide (temp > 1840 ∨ temp < -400)

/-- The measures that a reading of die d of R486 starts or releases. -/
def applyTemp (s : State) (d : Nat) (temp : Int) : State :=
  let first := fun (was : Bool) => measure was temp 1600 1552
  let second := fun (was : Bool) => measure was temp 1664 1632
  let p := s.pwr
  if d < 10 then
    { s with pwr := { p with stretch := setBitTo p.stretch d (first (p.stretch.getLsbD d))
                             holdBrick := setBitTo p.holdBrick d (second (p.holdBrick.getLsbD d)) } }
  else if d < 12 then
    let i := d - 10
    scaleRates { s with pwr := { p with throttleIod := setBitTo p.throttleIod i (first (p.throttleIod.getLsbD i))
                                        holdIod := setBitTo p.holdIod i (second (p.holdIod.getLsbD i)) } } i
  else
    let k := d - 12
    { s with pwr := { p with throttleStk := setBitTo p.throttleStk k (first (p.throttleStk.getLsbD k))
                             holdStk := setBitTo p.holdStk k (second (p.holdStk.getLsbD k)) } }

/-- A reading takes effect: one that has come to lie outside the range of R382 is a minor alarm of code 3. -/
def takeTemp (s : State) (d : Nat) (temp : Int) (was : Bool) : State :=
  applyTemp (if outOfRange temp && !was then minorAlarm s 3 else s) d temp

/-- THERMAL_LEVEL: the hottest sensor of die d of R486. -/
def execThermalLevel (d : Nat) (temp : Int) (s : State) : Out :=
  guarded (.thermalLevel d temp) s fun s =>
    let was := (tfind s.pwr.temps d).any outOfRange
    let s := { s with pwr := { s.pwr with temps := tput s.pwr.temps d temp } }
    if s.glb.state = .cold then s else takeTemp s d temp was

/-- The readings as they stand when a reset is released act on the device anew (R480, R499). -/
def takeTemps (s : State) : State := forEach s.pwr.temps (fun s e => takeTemp s e.1 e.2 false) s

/-- ALERT_N is low (R495): ALARM or NEEDS_REPAIR, a dip, or a die that holds. -/
def alertLow (s : State) : Bool :=
  s.glb.state == .alarm || s.glb.state == .needsRepair || s.pwr.dip || s.pwr.holdBrick != 0 || s.pwr.holdStk != 0 || s.pwr.holdIod != 0

/-! ### Boot (R31, R457) -/

/-- Orders 3 and 4 of R457: the boot records that they write, one after the other, and the area that runs, none where the recovery
image fails too. -/
def bootDecision (s : State) : List BootRec × Option Nat :=
  let b := bootRec s
  let staged := decide (b.pendingSlot < 2)
  let why := if staged then imageReason s b.pendingSlot else 0
  if staged ∧ why = 0 then
    ([{ b with prev := b.active, active := b.pendingSlot, trial := true, pendingSlot := 3, result := 0 }], some b.pendingSlot)
  else
    let refused := if staged then [{ b with pendingSlot := 3, result := why }] else []
    let b := refused.getLastD b
    let old := imageReason s b.active
    if old = 0 then (refused, some b.active)
    else (refused ++ [{ b with result := old }], if imageReason s 2 = 0 then some 2 else none)

/-- The boot ROM writes the boot record at each of its decisions (R450, R457). -/
def writeDecision (s : State) (l : List BootRec) : State := forEach l (fun s b => romWrite s ixBoot b.toNat) s

/-- Order 2 of R457: the record of a trial that has ended without a confirm record. -/
def endTrial (s : State) : State :=
  let b := bootRec s
  if b.trial then romWrite s ixBoot { b with active := b.prev, trial := false, result := 9 }.toNat else s

/-- The resources that the maps of the store say are lasting (R217). A logical core, pipeline or lane group is served by its shadow, and
is not one of them. -/
def mappedOut (s : State) : List Nat :=
  let cols (c a k : Nat) : Option Nat := usedShadow (columnMap s c a) k
  (List.range 40).flatMap (fun g => [0, 1].filterMap fun k => (usedShadow (bankMap s g) k).map fun b => resWord (.bank g b)) ++
  (List.range 480).flatMap (fun c =>
    (List.range 4).flatMap (fun a => [0, 1].filterMap fun k => (cols c a k).map fun j => resWord (.column c a j)) ++
    ((List.range 8).filter fun k => rfMapAt s c k != 0).map fun k => resWord (.rfEntry c (rfMapAt s c k - 1))) ++
  (List.range 20).flatMap (fun n =>
    ([false, true].filter fun t => dieUsed (dieMap s n) t).map fun t => resWord (.die n t (dieServed (dieMap s n) t))) ++
  (List.range 48).flatMap (fun n => if bit (laneMap s n) 3 then [resWord (.linkLane n (laneMap s n % 8))] else []) ++
  [0, 1].flatMap (fun d =>
    let v := pstValue s (ixCipher d)
    if v = 0 then [] else ((List.range (if bit v 5 then 5 else 4)).filter fun k => !bit v k).map fun k => resWord (.cipherCore d k)) ++
  (if pstValue s ixMgmtActive = 0 then [] else [resWord (.mgmtCore 0)])

/-- The maps of the store take effect at the release of reset. -/
def loadMaps (s : State) : State :=
  let s := forEach (List.range 40) (fun s g =>
    let v := pstValue s (ixBankMap g)
    let m := pstValue s (ixCoreMap g)
    s.modCluster g fun k => { k with bank0 := usedShadow v 0, bank1 := usedShadow v 1, shadowCore := if bit m 4 then some (m % 16) else none }) s
  let s := forEach (List.range 480) (fun s c => s.modCore c (takeColumns s c)) s
  let s := forEach (List.range 20) (fun s n =>
    let v := pstValue s (ixDieMap n)
    let s := s.modStack n fun k => { k with
      fastDie := if dieUsed v false then some (dieServed v false) else none
      denseDie := if dieUsed v true then some (dieServed v true) else none
      fastCopying := dieCopies v false, denseCopying := dieCopies v true }
    if pstValue s (ixPipe n) = 0 then s else s.modUnit n fun u => { u with pipe := true }) s
  let s := { s with spr := { s.spr with lasting := mappedOut s } }
  let s := forEach (List.range 48) (fun s n =>
    let v := pstValue s (ixLane n)
    if bit v 3 then s.modPort n fun x => { x with shLane := some (v % 8) } else s) s
  forEach [0, 1] (fun s d =>
    let v := pstValue s (ixCipher d)
    if v = 0 then s else s.modCipher d fun c => { c with cores := BitVec.ofNat 5 v, shadowUsed := bit v 5 }) s

/-- A word of the store for a port. -/
def ethWord (s : State) (p k : Nat) : W32 := BitVec.ofNat 32 (pstValue s (ixEth p k))
/-- The registers whose values come from the store. -/
def loadValues (s : State) : State :=
  let s := forEach [0, 1] (fun s p => s.modEther p fun x => { x with
    ipv4 := ethWord s p 0
    ipv6 := (ethWord s p 4).setWidth 128 <<< 96 ||| (ethWord s p 3).setWidth 128 <<< 64 ||| (ethWord s p 2).setWidth 128 <<< 32 |||
      (ethWord s p 1).setWidth 128
    vlan := ethWord s p 5, nextHop := storedHop s p }) s
  loadOwner { s with
    isx := { s.isx with port := pstValue s ixIsxPort }
    spr := { s.spr with repairCause := pstValue s ixRepairCause, mgmtActive := pstValue s ixMgmtActive != 0 } }

/-- A held reset may be released (R482): RESET_RELEASE itself says that POR_N and SYSRST_N are high (log 82). -/
def mayRelease (s : State) : Bool :=
  s.pwr.resetHeld && s.pwr.low == 0 && !s.pwr.dip && s.pwr.refPresent && s.pst.inFlight.isNone && decide (s.pwr.holdUntil ≤ s.now)

/-- The image that the ROM has selected is loaded; a confirmed one raises the counter first (R457, R460). -/
def selectImage (s : State) : State :=
  let d := bootDecision s
  let s := writeDecision s d.1
  let b := bootRec s
  match d.2 with
  | none => { s with fw := { s.fw with dead := true, active := 2 } }
  | some a =>
    let s := if a ≠ 2 ∧ b.trial = false ∧ imageSvn s a > pstValue s ixRollback then romWrite s ixRollback (imageSvn s a) else s
    loadImage s a (b.trial && a != 2)

/-- Die copies start again with their pointers at 0 (R222). -/
def startCopies (s : State) : State :=
  { s with stk := s.stk.map fun e =>
      (e.1, { e.2 with fastRunning := e.2.fastCopying, denseRunning := e.2.denseCopying, fastPtr := 0, densePtr := 0 }) }

/-- RESET_RELEASE: the boot ROM chooses the records, counts the boot, decides on the image and loads it. An open tamper mesh
raises the major alarm again (R448). -/
def execResetRelease (bpos : Nat) (meshOpen : Bool) (s : State) : Out :=
  guarded (.resetRelease bpos meshOpen) s fun s =>
    if !mayRelease s then s
    else
      let tick := if s.pwr.rstCode = 1 then 0 else s.pwr.tick
      let s := { s with
        pwr := { s.pwr with resetHeld := false, holdUntil := 0, tick := tick }
        glb := { s.glb with state := .booting }, lnk := { s.lnk with bpos := bpos }, fw := { s.fw with windowStart := tick } }
      let s := chooseRecords s
      let s := romWrite s ixBoots ((pstValue s ixBoots + 1) % 2 ^ 32)
      let s := formPairs (loadValues (loadMaps (selectImage (endTrial s))))
      let s := takeTemps (if meshOpen then majorAlarm (startCopies s) else s)
      startWrite s

/-- The first cipher core of a die that does not serve. -/
def lostCipher (s : State) (d : Nat) : Nat := ((List.range 5).find? fun k => !(s.cipher d).cores.getLsbD k).getD 0

/-- The failure of a resource word outruns the shadows still, by what the maps say of them (R35, R414). DESIGN CHOICE (log 80): a failed
shadow core still has, and a failed PLL has to fail again. -/
def stillOutruns (s : State) (res : Nat) : Bool :=
  match resOf res with
  | some (.core c) => bit (coreMap s (c / 12)) 4
  | some (.builtinTest c) => decide (c < 480) && bit (coreMap s (c / 12)) 4
  | some (.bank g _) => usedAt (bankMap s g) 0 && usedAt (bankMap s g) 1
  | some (.die n dense _) => dieUsed (dieMap s n) dense
  | some (.laneGroup q k) => bit (pstValue s (ixLaneGroup q (k / 32))) (k % 32)
  | some (.pipeline n _) => pstValue s (ixPipe n) != 0
  | some (.cipherCore d _) => decide (cipherCores s d < 2)
  | some (.mgmtCore _) => s.spr.mgmtActive
  | _ => false

/-- A device whose failure still outruns the shadows needs repair again after a reset (R35): that of `SPR_REPAIR_CAUSE`, or a die with
fewer than two cipher cores (R379). -/
def stillBroken (s : State) : State :=
  if s.spr.repairCause ≠ 0 ∧ stillOutruns s s.spr.repairCause = true then needsRepair s s.spr.repairCause
  else
    match [0, 1].find? fun d => decide (cipherCores s d < 2) with
    | some d => needsRepair s (resWord (.cipherCore d (lostCipher s d)))
    | none => s

/-- The scrub passes of every stack begin (R214, R215). -/
def startScrub (s : State) : State :=
  { s with stk := s.stk.map fun e => (e.1, { e.2 with fastBegun := s.now, denseBegun := s.now }) }

/-- BOOT_COMPLETE (R31): the image is accepted, every function is ready, stacks and links are trained. Die copies start again, and
event 10 reports each port that has given up (R293). -/
def execBootComplete (s : State) : Out :=
  guarded .bootComplete s fun s =>
    if s.glb.state ≠ .booting ∨ s.fw.dead = true ∨ s.glb.fnReset ≠ 0 ∨ portsSettled s = false then s
    else
      let s := startScrub (startCopies { s with glb := { s.glb with state := .isolated }, lnk := { s.lnk with windows := testWindows } })
      let s := forEach ((List.range 48).filter fun n => (s.port n).gaveUp) (fun s _ => raiseOpen s 10) s
      stillBroken s

/-- CONFIRM_WINDOW_EXPIRY (R462): 600 s since the release of reset without a pass. -/
def execConfirmWindowExpiry (s : State) : Out :=
  guarded .confirmWindowExpiry s fun s =>
    if s.glb.state = .cold ∨ s.fw.dead = true ∨ s.fw.recovery = true ∨ s.fw.windowDone = true ∨ s.now - s.fw.windowStart < confirmWindow then s
    else if s.fw.trial then fullReset s 6 0xF
    else raiseOpen { s with fw := { s.fw with windowDone := true } } 17

end Sys2Proof.Machine
end

