-- ==== Sys2Proof/Machine/Regs.lean ====
section
/-!
DEFINITION. Register space (R207, R208): the value that each register reads as, and what a read of RC fields and of LO words
changes (R11, R280). Offsets are those from 0x00_F000_0000_0000.
-/
namespace Sys2Proof.Machine

/-- A read that changes nothing. -/
def ro (s : State) (v : Nat) : Nat × State := (v % 2 ^ 32, s)

/-- A read of a LO word latches the HI word of its counter (R280). -/
def readLo (s : State) (hiOff v : Nat) : Nat × State :=
  (v % 2 ^ 32, { s with latches := tput s.latches hiOff (v / 2 ^ 32 % 2 ^ 32) })

/-- A read of a HI word gives what its LO word latched, once. -/
def readHi (s : State) (off v : Nat) : Nat × State :=
  match tfind s.latches off with
  | some h => (h, { s with latches := tdel s.latches off })
  | none => (v / 2 ^ 32 % 2 ^ 32, s)

/-- Instance and offset within it, for a block of `count` instances. -/
def inst (off base stride count : Nat) : Option (Nat × Nat) :=
  if base ≤ off ∧ off < base + stride * count then some ((off - base) / stride, (off - base) % stride) else none

/-- Word w of a serial (R310, R441). -/
def serialWord (x : BitVec 128) (w : Nat) : Nat := x.toNat >>> (32 * w) % 2 ^ 32

/-! ### GLB_ (R9, R29, R58, R62, R64, R244, R259) -/

def planStatus (s : State) : Nat :=
  s.run.reason * 2 ^ 12 + b2n ((s.run.plan.map (·.fbk)).getD false) * 256 + b2n s.run.fallback * 16 + b2n s.run.resumed * 2 +
  b2n s.run.plan.isSome

def planGen (s : State) : Nat := (s.run.plan.map (·.gen)).getD 0

def readGlb (s : State) (o : Nat) : Nat × State :=
  let g := s.glb
  if o = 0x00 then ro s 0x0100
  else if o = 0x40 then ro s (stateWord s)
  else if o = 0x80 then ro s g.rseed
  else if o = 0x84 then ro s (g.rseed / 2 ^ 32)
  else if o = 0x88 then ro s (b2n g.lsOvf * 2 ^ 31 + g.lsClean * 2 ^ 16 + g.lsExp)
  else if o = 0x8C then ro s g.lsInterval
  else if o = 0x90 then (g.lsFloorHits * 2 ^ 16 + g.lsSkips, { s with glb := { g with lsFloorHits := 0, lsSkips := 0 } })
  else if o = 0xA0 then ro s (pstValue s ixCommitMark)
  else if o = 0xA4 then ro s g.markInterval
  else if o = 0xC0 then ro s (planGen s)
  else if o = 0xC4 then ro s (planStatus s)
  else if o = 0xC8 then ro s g.planVariant
  else if o = 0xCC then readLo s 0xD0 s.run.step
  else if o = 0xD0 then readHi s 0xD0 s.run.step
  else if o = 0xD4 then (g.reruns * 2 ^ 16 + b2n s.run.tainted * 256 + s.run.phase, { s with glb := { g with reruns := 0 } })
  else if o = 0xD8 then (b2n g.evalEn * 2 ^ 31 + g.evalSlots, { s with glb := { g with evalSlots := 0 } })
  else ro s 0

/-! ### PWR_, CLK_, RST_ (R485 to R487) -/

def readPwr (s : State) (o : Nat) : Nat × State :=
  let p := s.pwr
  if o = 0x00 then ro s (b2n p.dip * 2 ^ 16 + p.low.toNat)
  else if o = 0x04 then (p.recovered * 2 ^ 16, { s with pwr := { p with recovered := 0 } })
  else if o = 0x10 then ro s (p.holdBrick.toNat * 2 ^ 16 + p.stretch.toNat)
  else if o = 0x14 then ro s p.throttleStk.toNat
  else if o = 0x18 then ro s p.holdStk.toNat
  else if o = 0x1C then ro s (p.holdIod.toNat * 4 + p.throttleIod.toNat)
  else if 0x100 ≤ o ∧ o < 0x180 then ro s ((tget 0 p.temps ((o - 0x100) / 4)) % 65536).toNat
  else ro s 0

/-- `CLK_STATUS` (R485). -/
def clkStatus (s : State) : Nat :=
  b2n s.pwr.refOk * 2 ^ 31 + (if s.pwr.dip then 0x3FF else s.pwr.stretch.toNat) * 2 ^ 16 + b2n s.pwr.unlocked.isEmpty

def readClk (s : State) (o : Nat) : Nat × State :=
  if o = 0 then readLo s 0x20004 s.now
  else if o = 4 then readHi s 0x20004 s.now
  else if o = 8 then ro s (clkStatus s)
  else ro s 0

def readRst (s : State) (o : Nat) : Nat × State :=
  if o = 0 then ro s (s.pwr.rstFull * 2 ^ 16 + s.pwr.rstRail * 256 + s.pwr.rstCode) else ro s 0

/-! ### PST_, FW_ (R465, R466) -/

/-- The index that holds the WP register at an offset. -/
def wpIndex (off : Nat) : Option Nat :=
  ((List.range 7).map (20 + ·) ++ (List.range 16).map (30 + ·)).find? fun ix => pstRegister ix == some off

/-- Indices at the endurance limit. -/
def wornCount (s : State) : Nat := (s.pst.table.filter fun e => decide (enduranceLimit ≤ e.2.2)).length

def readPst (s : State) (o : Nat) : Nat × State :=
  let p := s.pst
  if o = 0x00 then
    ro s (b2n p.lost1 * 8 + b2n p.lost0 * 4 + b2n (s.pwr.low != 0) * 2 +
      b2n (p.inFlight.isSome || !p.queue.isEmpty || !p.waiting.isEmpty))
  else if o = 0x04 then ro s enduranceLimit
  else if o = 0x08 then ro s p.wearAddr
  else if o = 0x0C then ro s (match wpIndex p.wearAddr with | some ix => pstSeq s ix | none => 0xFFFFFFFF)
  else if o = 0x10 then (p.writes, { s with pst := { p with writes := 0 } })
  else if o = 0x14 then (p.torn * 2 ^ 16 + p.lostIdx, { s with pst := { p with torn := 0, lostIdx := 0 } })
  else if o = 0x18 then (p.wornRefused * 2 ^ 16 + Nat.min 65535 (wornCount s), { s with pst := { p with wornRefused := 0 } })
  else ro s 0

def readFw (s : State) (o : Nat) : Nat × State :=
  let f := s.fw
  let b := bootRec s
  if o = 0x00 then ro s (b.result * 2 ^ 16 + b2n f.recovery * 128 + b2n f.trial * 64 + b.pendingSlot * 16 + f.active)
  else if o = 0x04 then ro s (f.major * 2 ^ 24 + f.minor * 2 ^ 16 + f.patch)
  else if o = 0x08 then ro s f.svn
  else if o = 0x0C then ro s (pstValue s ixRollback)
  else if o = 0x10 then ro s (confirmLeft s)
  else if o = 0x14 then ro s f.features
  else if o = 0x18 then ro s (pstValue s ixBoots)
  else ro s 0

/-! ### SPR_ (R218, R441) -/

/-- `SPR_CORE_MAPg`: the record (R415). The map registers show what order 2 of a swap records, before the swap is made. -/
def coreMapReg (s : State) (g : Nat) : Nat := pstValue s (ixCoreMap g) % 32

def countOf (n : Nat) (f : Nat → Bool) : Nat := ((List.range n).filter f).length

/-- `SPR_SUMMARY`. -/
def sprSummary (s : State) : Nat :=
  countOf 40 (fun g => (s.cluster g).shadowCore.isSome) * 2 ^ 20 + countOf 20 (fun n => (s.unit n).pipe) * 2 ^ 14 +
  (countOf 20 (fun n => dieUsed (pstValue s (ixDieMap n)) false) + countOf 20 fun n => dieUsed (pstValue s (ixDieMap n)) true) * 2 ^ 8 +
  pstValue s ixLasting

def reflectCode : ReflectMode → Nat
  | .none => 0
  | .opening => 1
  | .full => 2
  | .difference => 3
  | .unsure => 4

def readSpr (s : State) (o : Nat) : Nat × State :=
  let r := s.spr
  if o = 0x00 then ro s (pstValue s ixWindow)
  else if o = 0x04 then ro s (pstValue s ixEvents)
  else if o = 0x08 then ro s (sprSummary s)
  else if o = 0x0C then ro s r.repairCause
  else if o = 0x10 then (r.mgmtExpiries * 2 ^ 16 + b2n r.mgmtActive, { s with spr := { r with mgmtExpiries := 0 } })
  else if 0x100 ≤ o ∧ o < 0x1A0 then ro s (coreMapReg s ((o - 0x100) / 4))
  else if 0x200 ≤ o ∧ o < 0x210 then ro s (serialWord r.buddy ((o - 0x200) / 4))
  else if 0x210 ≤ o ∧ o < 0x220 then ro s (serialWord r.heldFor ((o - 0x210) / 4))
  else if o = 0x220 then ro s (reflectCode r.reflect)
  else if o = 0x224 then readLo s 0x60228 r.reflected
  else if o = 0x228 then readHi s 0x60228 r.reflected
  else if o = 0x22C then readLo s 0x60230 r.held
  else if o = 0x230 then readHi s 0x60230 r.held
  else if o = 0x240 then
    (r.mismatch * 2 ^ 16 + r.copies * 256 + r.undecided, { s with spr := { r with mismatch := 0, copies := 0, undecided := 0 } })
  else ro s 0

/-! ### ISX_, CDC_ (R331, R411) -/

def readIsx (s : State) (o : Nat) : Nat × State :=
  let x := s.isx
  if o = 0x00 then ro s (pstValue s ixIsxPort)
  else if o = 0x04 then ro s (openingSessions s * 2 ^ 16 + openSessions s)
  else if o = 0x08 then ro s x.idleLimit
  else if o = 0x0C then (x.dropCtx * 2 ^ 16 + x.dropSeq, { s with isx := { x with dropCtx := 0, dropSeq := 0 } })
  else if o = 0x10 then (x.dropTag * 2 ^ 16 + x.dropRate, { s with isx := { x with dropTag := 0, dropRate := 0 } })
  else if o = 0x14 then ro s (if x.ring.isEmpty then 0 else x.nextEvent + 2 ^ 32 - 1)
  else ro s 0

def readCdc (s : State) (o : Nat) : Nat × State :=
  let c := s.cdc
  let gen := fun (k : Nat) => (s.fw.gens.map (·.gen)).getD k 0
  if o = 0x00 then ro s (gen 3 * 2 ^ 24 + gen 2 * 2 ^ 16 + gen 1 * 256 + gen 0)
  else if o = 0x04 then (c.blocks, { s with cdc := { c with blocks := 0 } })
  else if o = 0x08 then (c.raw, { s with cdc := { c with raw := 0 } })
  else if o = 0x0C then (c.eraseGen, { s with cdc := { c with eraseGen := 0 } })
  else if o = 0x10 then (c.eraseLen, { s with cdc := { c with eraseLen := 0 } })
  else if o = 0x14 then (c.eraseMal, { s with cdc := { c with eraseMal := 0 } })
  else if o = 0x18 then ro s c.last.toNat
  else ro s 0

/-! ### IDL_, CORE_, ARR_, VEC_ (R105, R127, R136, R279) -/

def readIdl (s : State) (c o : Nat) : Nat × State :=
  let x := s.core c
  let at' := fun (k : Nat) => 0x100000 + 0x100 * c + k
  if o < 0x48 then
    let v := tget 0 x.idle (o / 8)
    if o % 8 = 0 then readLo s (at' (o + 4)) v else readHi s (at' o) v
  else if o = 0x48 then readLo s (at' 0x4C) x.busy
  else if o = 0x4C then readHi s (at' 0x4C) x.busy
  else if o = 0x50 then ro s x.steps
  else ro s 0

/-- QUIESCED from RUNNING, with parking ended. -/
def parkedRun (s : State) : Bool := s.glb.state == .quiesced && s.glb.prior == some .running && !s.isx.parking

/-- The index of the next bundle (R105). -/
def nextPc (x : Core) : Nat :=
  match x.bun with
  | some b => (nextBundle x x.pc b.loop b.branch).1
  | none => x.pc

/-- `CORE_STATUS`: a core of the run is parked where no bundle of it is in progress. -/
def coreStatus (s : State) (c : Nat) : Nat :=
  let x := s.core c
  let parked := s.glb.state == .quiesced && s.glb.prior == some .running && x.active && !x.ended && x.bun.isNone
  b2n parked * 2 ^ 25 + b2n x.waiting.isSome * 2 ^ 24 + (if x.waiting.isSome then waitToken (fetch s c) else 0) * 2 ^ 18 +
  x.loops.length * 2 ^ 15 + nextPc x

def readCore (s : State) (c o : Nat) : Nat × State :=
  let x := s.core c
  if o = 0x00 then ro s (x.faultTok * 2 ^ 19 + x.faultPc * 32 + x.faultCode)
  else if o = 0x04 then ro s (coreStatus s c)
  else if o = 0x08 then ro s x.waitLimit
  else ro s 0

/-- `ARR_SHADOW` of an array. -/
def arrShadow (s : State) (c a : Nat) (r : Arr) : Nat :=
  r.parEvents * 2 ^ 16 + pstValue s (ixColumns (coreSlot s c) a) >>> (16 * (a % 2)) % 65536

def readArr (s : State) (c o : Nat) : Nat × State :=
  let x := s.core c
  if 0x100 ≤ o ∧ o < 0x180 then ro s (tget 0 x.epi ((o - 0x100) / 4)).toNat
  else if 0x200 ≤ o ∧ o < 0x210 then
    let a := (o - 0x200) / 4
    let r := tget Arr.reset x.arrays a
    (arrShadow s c a r, s.setCore c { x with arrays := tput x.arrays a { r with parEvents := 0 } })
  else ro s 0

def readVec (s : State) (c o : Nat) : Nat × State :=
  let x := s.core c
  if o = 0x00 then (x.veIssue0, s.setCore c { x with veIssue0 := 0 })
  else if o = 0x04 then (x.veIssue1, s.setCore c { x with veIssue1 := 0 })
  else if o = 0x08 then (x.veNan, s.setCore c { x with veNan := 0 })
  else ro s 0

/-! ### CLU_, DMA_ (R196, R198) -/

/-- `CLU_BANK_MAP`: the record (R417). -/
def bankMapReg (s : State) (g : Nat) : Nat := pstValue s (ixBankMap g)

/-- One bit for each of the ten engines. -/
def engineBits (f : Nat → Bool) : Nat := ((List.range 10).map fun n => b2n (f n) * 2 ^ n).sum

def readClu (s : State) (g o : Nat) : Nat × State :=
  let k := s.cluster g
  let busy := fun (n : Nat) => !(s.engine g n).lists.isEmpty
  if o = 0x00 then ro s (engineBits (fun n => busy n && parkedRun s) * 2 ^ 16 + engineBits busy)
  else if o = 0x04 then ro s (k.faultEng * 2 ^ 24 + k.faultDesc / 64 % 2 ^ 20 * 16 + k.faultCode)
  else if o = 0x08 then (k.oob, s.setCluster g { k with oob := 0 })
  else if o = 0x0C then ro s (bankMapReg s g)
  else if 0x100 ≤ o ∧ o < 0x300 then
    let e := tget (0, 0) k.rng ((o - 0x100) / 32)
    let w := (o - 0x100) % 32 / 4
    ro s (if w = 0 then e.1.toNat else if w ≤ 4 then e.2.toNat >>> (32 * (w - 1)) else 0)
  else if 0x400 ≤ o ∧ o < 0x540 then ro s (tget 0 (s.engine g ((o - 0x400) / 32)).tokens ((o - 0x400) % 32 / 4))
  else ro s 0

def readDma (s : State) (g o : Nat) : Nat × State :=
  let e0 := s.engine g 0
  let e1 := s.engine g 1
  if o = 0x00 then ro s (e0.cur / 64)
  else if o = 0x04 then ro s (e1.cur / 64)
  else if o = 0x08 then ro s (e1.lists.length * 256 + e0.lists.length)
  else if o = 0x0C then
    (e1.done * 2 ^ 16 + e0.done, (s.modEngine g 0 fun x => { x with done := 0 }).modEngine g 1 fun x => { x with done := 0 })
  else if o = 0x10 then (e0.units, s.modEngine g 0 fun x => { x with units := 0 })
  else if o = 0x14 then (e1.units, s.modEngine g 1 fun x => { x with units := 0 })
  else if o = 0x18 then ((s.cluster g).pads, s.modCluster g fun k => { k with pads := 0 })
  else ro s 0

/-! ### STK_, UPD_ (R223, R233, R247) -/

def readStk (s : State) (n o : Nat) : Nat × State :=
  let k := s.stack n
  if o = 0x00 then ro s (pstValue s (ixDieMap n))
  else if o = 0x04 then ro s (k.densePtr / 128 * 2 ^ 16 + k.fastPtr / 128)
  else if o = 0x08 then
    (Nat.min 65535 k.parDies * 2 ^ 16 + Nat.min 65535 k.parIface, s.modStack n fun k => { k with parDies := 0, parIface := 0 })
  else if o = 0x0C then (k.lost, s.modStack n fun k => { k with lost := 0 })
  else if o = 0x10 then ro s k.lostAddr.toNat
  else if o = 0x14 then ro s (b2n k.scrubEn * 2 ^ 31 + k.scrubPeriod)
  else if o = 0x18 then
    (b2n k.fastLate * 2 ^ 31 + b2n k.denseLate * 2 ^ 30 + k.densePasses * 256 + k.fastPasses,
      s.modStack n fun k => { k with densePasses := 0, fastPasses := 0 })
  else ro s 0

def readUpd (s : State) (n o : Nat) : Nat × State :=
  let u := s.unit n
  let hi := 0xA00000 + 0x10000 * n + 8
  if o = 0x00 then ro s (b2n u.restoring * 8 + b2n u.pipe * 4 + b2n u.busy * 2 + b2n u.bank)
  else if o = 0x04 then readLo s hi u.committed
  else if o = 0x08 then readHi s hi u.committed
  else if o = 0x0C then (u.nonfinite, s.modUnit n fun u => { u with nonfinite := 0 })
  else if o = 0x10 then (u.restores, s.modUnit n fun u => { u with restores := 0 })
  else if 0x100 ≤ o ∧ o < 0x300 ∧ (o - 0x100) % 64 < 40 then ro s (u.hpAt ((o - 0x100) / 64) ((o - 0x100) % 64 / 4)).toNat
  else ro s 0

/-! ### LNK_ (R310, R311) -/

/-- `LNK_STATE` of a port; SH_USED and SH_LANE are the record (R291). -/
def lnkState (s : State) (n : Nat) : Nat :=
  let x := s.port n
  b2n x.used * 2 ^ 31 + x.logical * 2 ^ 24 + (if bit (pstValue s (ixLane n)) 3 then pstValue s (ixLane n) % 8 * 2 ^ 21 + 2 ^ 20 else 0) + x.codecGen * 2 ^ 12 +
  x.proto * 256 + x.reason * 16 + x.state

def readLnk (s : State) (n o : Nat) : Nat × State :=
  let x := s.port n
  let nbr := fun (f : Ident → Nat) => (x.nbr.map f).getD 0
  if o = 0x00 then ro s (lnkState s n)
  else if 0x04 ≤ o ∧ o < 0x14 then ro s (nbr fun i => serialWord i.serial ((o - 4) / 4))
  else if o = 0x14 then ro s (nbr fun i => i.bpos * 2 ^ 12 + i.dir * 2 ^ 9 + i.idx * 64 + i.port)
  else if o = 0x18 then ro s (nbr (·.gen))
  else if o = 0x1C then ro s (nbr (·.part))
  else if o = 0x20 then (x.replays, s.modPort n fun x => { x with replays := 0 })
  else if o = 0x24 then (x.fails * 2 ^ 16 + x.retrains, s.modPort n fun x => { x with fails := 0, retrains := 0 })
  else if o = 0x28 then (x.dropRoute * 2 ^ 16 + x.dropGenpart, s.modPort n fun x => { x with dropRoute := 0, dropGenpart := 0 })
  else if o = 0x2C then (x.dropForeign * 2 ^ 16 + x.dropMsgonly, s.modPort n fun x => { x with dropForeign := 0, dropMsgonly := 0 })
  else if n = 0 ∧ o = 0xF00 then ro s (pstValue s ixMiswire)
  else if n = 0 ∧ o = 0xF04 then ro s s.lnk.downLimit
  else if n = 0 ∧ o = 0xF08 then ro s (b2n s.lnk.shared * 256 + s.lnk.bmask * 16 + s.lnk.bpos)
  else ro s 0

/-! ### FUL_, CIP_, ETH_ (R360, R386, R410) -/

def readFul (s : State) (d o : Nat) : Nat × State :=
  let x := s.die d
  let mine := s.fctx.filter fun e => portOf e.1 == d && e.2.state != 0
  if d = 0 ∧ o = 0x00 then ro s (pstValue s ixFulPort)
  else if d = 0 ∧ o = 0x04 then ro s (pstValue s ixRoundBase)
  else if d = 0 ∧ o = 0x08 then ro s (b2n s.ful.shareEcn * 256 + s.ful.share)
  else if d = 0 ∧ o = 0x0C then ro s s.ful.joinLimit
  else if o = 0x100 then ro s ((mine.filter fun e => e.2.state == 4).length * 2 ^ 16 + mine.length)
  else if o = 0x104 then ro s x.formed
  else if o = 0x110 then (x.dropCtx * 2 ^ 16 + x.dropTag, s.modDie d fun x => { x with dropCtx := 0, dropTag := 0 })
  else if o = 0x114 then (x.dropSeq * 2 ^ 16 + x.dropEpoch, s.modDie d fun x => { x with dropSeq := 0, dropEpoch := 0 })
  else if o = 0x118 then (x.dups, s.modDie d fun x => { x with dups := 0 })
  else if o = 0x11C then (x.stale * 2 ^ 16 + x.bad, s.modDie d fun x => { x with stale := 0, bad := 0 })
  else if o = 0x120 then (x.resent, s.modDie d fun x => { x with resent := 0 })
  else if o = 0x124 then (x.recovered, s.modDie d fun x => { x with recovered := 0 })
  else if o = 0x128 then (x.rounds * 2 ^ 16 + x.jumps, s.modDie d fun x => { x with rounds := 0, jumps := 0 })
  else ro s 0

/-- `CIP_STATUS` of an I/O die. -/
def cipStatus (s : State) (d : Nat) : Nat :=
  let c := s.cipher d
  c.kdf.length * 2 ^ 16 + b2n c.shadowUsed * 32 + c.cores.toNat

def keyId (k : Option RootKey) : Nat := (k.map (·.id)).getD 0

def readCip (s : State) (d o : Nat) : Nat × State :=
  let c := s.cipher d
  let k := s.keys
  if o = 0x00 then ro s (cipStatus s d)
  else if o = 0x04 then (c.derived, s.modCipher d fun c => { c with derived := 0 })
  else if o = 0x08 then (c.tagFail, s.modCipher d fun c => { c with tagFail := 0 })
  else if o = 0x0C then (c.length, s.modCipher d fun c => { c with length := 0 })
  else if o = 0x10 then (c.pauses * 2 ^ 16 + c.rekeys, s.modCipher d fun c => { c with pauses := 0, rekeys := 0 })
  else if d = 0 ∧ o = 0xF00 then ro s (b2n k.old.isSome * 4 + b2n k.cur.isSome * 2 + b2n k.owner.isSome)
  else if d = 0 ∧ o = 0xF04 then ro s (keyId k.cur)
  else if d = 0 ∧ o = 0xF08 then ro s (keyId k.old)
  else if d = 0 ∧ o = 0xF0C then ro s (keyId k.owner)
  else if d = 0 ∧ o = 0xF10 then (k.minorAlarms * 2 ^ 16 + k.lastAlarm, { s with keys := { k with minorAlarms := 0 } })
  else ro s 0

def readEth (s : State) (p o : Nat) : Nat × State :=
  let x := s.ether p
  if o = 0x00 then ro s (b2n x.fecLock * 2 + b2n x.linkUp)
  else if o = 0x04 then ro s (Config.mac p).toNat
  else if o = 0x08 then ro s ((Config.mac p).toNat / 2 ^ 32)
  else if 0x0C ≤ o ∧ o < 0x2C then ro s (pstValue s (ixEth p ((o - 0x0C) / 4)))
  else if o = 0x2C then ro s x.dscp.toNat
  else if o = 0x30 then ro s x.pfc.toNat
  else if o = 0x40 then (x.dropMac * 2 ^ 16 + x.dropVlan, s.modEther p fun x => { x with dropMac := 0, dropVlan := 0 })
  else if o = 0x44 then (x.dropIp * 2 ^ 16 + x.dropProto, s.modEther p fun x => { x with dropIp := 0, dropProto := 0 })
  else if o = 0x48 then (x.dropPort * 2 ^ 16 + x.dropQueue, s.modEther p fun x => { x with dropPort := 0, dropQueue := 0 })
  else if o = 0x4C then (x.ingStranger * 2 ^ 16 + x.ingCrc, s.modEther p fun x => { x with ingStranger := 0, ingCrc := 0 })
  else if o = 0x50 then (x.framesRx, s.modEther p fun x => { x with framesRx := 0 })
  else if o = 0x54 then (x.framesTx, s.modEther p fun x => { x with framesTx := 0 })
  else ro s 0

/-! ### The map (R208) -/

/-- The blocks of R208. -/
inductive Block where
  | glb | pwr | clk | rst | pst | fw | spr | isx | cdc | idl | cip | eth | ful | lnk | stk | upd | clu | dma | core | arr | vec
deriving DecidableEq, Repr

/-- Base, instances and stride of each block. -/
def blockMap : List (Block × Nat × Nat × Nat) :=
  [(.glb, 0x0, 1, 0x10000), (.pwr, 0x10000, 1, 0x10000), (.clk, 0x20000, 1, 0x10000), (.rst, 0x30000, 1, 0x10000),
   (.pst, 0x40000, 1, 0x10000), (.fw, 0x50000, 1, 0x10000), (.spr, 0x60000, 1, 0x10000), (.isx, 0x70000, 1, 0x10000),
   (.cdc, 0x80000, 1, 0x10000), (.idl, 0x100000, 480, 0x100), (.cip, 0x200000, 2, 0x10000), (.eth, 0x300000, 2, 0x10000),
   (.ful, 0x400000, 2, 0x100000), (.lnk, 0x600000, 48, 0x1000), (.stk, 0x800000, 20, 0x10000), (.upd, 0xA00000, 20, 0x10000),
   (.clu, 0x1000000, 40, 0x1000), (.dma, 0x1100000, 40, 0x1000), (.core, 0x2000000, 480, 0x1000), (.arr, 0x2400000, 480, 0x1000),
   (.vec, 0x2800000, 480, 0x1000)]

/-- Block, instance and offset within the instance. -/
def regAt (off : Nat) : Option (Block × Nat × Nat) :=
  blockMap.findSome? fun b => (inst off b.2.1 b.2.2.2 b.2.2.1).map fun x => (b.1, x)

/-- A read of the register at an offset of register space; one that no block names reads 0 (R207). -/
def readReg (s : State) (off : Nat) : Nat × State :=
  match regAt off with
  | none => (0, s)
  | some (b, n, o) =>
    match b with
    | .glb => readGlb s o
    | .pwr => readPwr s o
    | .clk => readClk s o
    | .rst => readRst s o
    | .pst => readPst s o
    | .fw => readFw s o
    | .spr => readSpr s o
    | .isx => readIsx s o
    | .cdc => readCdc s o
    | .idl => readIdl s n o
    | .cip => readCip s n o
    | .eth => readEth s n o
    | .ful => readFul s n o
    | .lnk => readLnk s n o
    | .stk => readStk s n o
    | .upd => readUpd s n o
    | .clu => readClu s n o
    | .dma => readDma s n o
    | .core => readCore s n o
    | .arr => readArr s n o
    | .vec => readVec s n o

end Sys2Proof.Machine
end

