-- ==== Sys2Proof/Machine/RegCmds.lean ====
section
/-!
DEFINITION. Register writes: what each register accepts and in which states (R10 to R12, R63, R106, R128, R218, R224, R235, R244, R260,
R298, R312, R361, R411, R412, R465), and the commands REG_READ, REG_WRITE (R207, R400), SPR_REPORT (R438) and ATTEST_QUOTE (R464).
-/
namespace Sys2Proof.Machine

/-! ### One word -/

/-- What a write of a word answers: its status, and the ticket of the persistent write that its reply waits for. -/
structure WordWrite where
  next : State
  status : Nat
  ticket : Option Nat

/-- A write that takes effect at once. -/
def wrote (s : State) : WordWrite := { next := s, status := stOk, ticket := none }
/-- A write that leaves the register unchanged. -/
def unwritten (s : State) (status : Nat) : WordWrite := { next := s, status := status, ticket := none }

/-- A write of a WP register (R12, R443, R444). -/
def writeWp (s : State) (ix value : Nat) (hook : PstHook) : WordWrite :=
  match hostWrite s ix value hook with
  | (s, .same) => wrote s
  | (s, .queued t) => { next := s, status := stOk, ticket := some t }
  | (s, .busy) => unwritten s stBusy
  | (s, .worn) => unwritten s stWorn
  | (s, .dead) => unwritten s stNeedsRepair

/-- A write that only some states allow. -/
def inStates (s : State) (l : List DevState) (f : WordWrite) : WordWrite :=
  if l.contains s.glb.state then f else unwritten s stNotInState

/-- A value outside its range leaves the register unchanged. -/
def inRange (s : State) (ok : Bool) (f : WordWrite) : WordWrite := if ok then f else unwritten s stLimit

def writeGlb (s : State) (o v : Nat) : WordWrite :=
  let g := s.glb
  if o = 0x88 then
    inStates s inIR (inRange s (decide (-14 ≤ signedOf 8 (v % 256) ∧ signedOf 8 (v % 256) ≤ 24))
      (wrote { s with glb := { g with lsExp := v % 256, lsClean := 0 } }))
  else if o = 0x8C then inStates s inIR (wrote { s with glb := { g with lsInterval := v % 2 ^ 15 } })
  else if o = 0xA0 then inStates s inIR (writeWp s ixCommitMark v .none)
  else if o = 0xA4 then inRange s (v % 65536 != 0) (wrote { s with glb := { g with markInterval := v % 65536 } })
  else if o = 0xC8 then
    inStates s inR (inRange s (v % 2 == 0 || (s.run.plan.map (·.fbk)).getD false) (wrote { s with glb := { g with planVariant := v % 2 } }))
  else if o = 0xD8 then inStates s inR (wrote { s with glb := { g with evalEn := bit v 31 } })
  else wrote s

def writePst (s : State) (o v : Nat) : WordWrite :=
  if o = 0x08 then wrote { s with pst := { s.pst with wearAddr := v % 2 ^ 26 } } else wrote s

def writeSpr (s : State) (o v : Nat) : WordWrite :=
  if o = 0x00 then inRange s (decide (0x10000 ≤ v)) (writeWp s ixWindow v .none)
  else if o = 0x04 then inRange s (decide (2 ≤ v % 256)) (writeWp s ixEvents (v % 256) .none)
  else wrote s

/-- LPORTs of the committed plan's streams (R406, R411). -/
def planLports (s : State) : List Nat := ((s.run.plan.map (·.streams)).getD []).map (·.lport)

def writeIsx (s : State) (o v : Nat) : WordWrite :=
  let port := v % 65536
  if o = 0x00 then
    inRange s (decide (port ≠ 0 ∧ port ≠ pstLatest s ixFulPort) && port != pstValue s ixFulPort && !(planLports s).contains port)
      (writeWp s ixIsxPort port .none)
  else if o = 0x08 then wrote { s with isx := { s.isx with idleLimit := v } }
  else wrote s

/-- FUL_ registers that need ISOLATED with no plan and no Fuelle session (R361). -/
def fulIdle (s : State) : Bool := s.glb.state == .isolated && s.run.plan.isNone && s.fctx.all fun e => e.2.state == 0

def writeFul (s : State) (d o v : Nat) : WordWrite :=
  let port := v % 65536
  if d ≠ 0 then wrote s
  else if o = 0x00 then
    if !fulIdle s then unwritten s stNotInState
    else inRange s (decide (port ≠ 0 ∧ port ≠ pstLatest s ixIsxPort ∧ port ≠ s.isx.port)) (writeWp s ixFulPort port .none)
  else if o = 0x04 then (if !fulIdle s then unwritten s stNotInState else writeWp s ixRoundBase v .none)
  else if o = 0x08 then
    inRange s (decide (1 ≤ v % 256 ∧ v % 256 ≤ 100))
      (wrote (scaleRates (scaleRates { s with ful := { s.ful with shareEcn := bit v 8, share := v % 256 } } 0) 1))
  else if o = 0x0C then inRange s (v != 0) (wrote { s with ful := { s.ful with joinLimit := v } })
  else wrote s

def writeLnk (s : State) (n o v : Nat) : WordWrite :=
  if n ≠ 0 then wrote s
  else if o = 0xF00 then inStates s inIR (writeWp s ixMiswire (v % 2) .none)
  else if o = 0xF04 then inStates s inIR (inRange s (decide (0xF4240 ≤ v)) (wrote { s with lnk := { s.lnk with downLimit := v } }))
  else wrote s

/-- `ETH_IPV4` is neither multicast nor broadcast (R412). -/
def ipv4Ok (v : Nat) : Bool := v / 2 ^ 28 != 14 && v != 0xFFFFFFFF

def writeEth (s : State) (p o v : Nat) : WordWrite :=
  if o = 0x0C then inRange s (ipv4Ok v) (writeWp s (ixEth p 0) v .none)
  else if 0x10 ≤ o ∧ o < 0x20 then
    let w := (o - 0x10) / 4
    inRange s (w != 3 || v / 2 ^ 24 != 255) (writeWp s (ixEth p (1 + w)) v .none)
  else if o = 0x20 then
    let x := v % 2 ^ 12 + b2n (bit v 15) * 2 ^ 15
    inRange s (!bit v 15 || decide (x % 2 ^ 12 ≠ 0 ∧ x % 2 ^ 12 ≠ 0xFFF)) (writeWp s (ixEth p 5) x .none)
  else if o = 0x24 then
    let r := writeWp s (ixEth p 6) v (.nextHop p)
    if r.status = stOk ∧ r.ticket = none then { r with next := takeHop r.next p } else r
  else if o = 0x28 then inRange s (!bit v 8) (writeWp s (ixEth p 7) (v % 65536) .none)
  else if o = 0x2C then wrote (s.modEther p fun x => { x with dscp := BitVec.ofNat 32 (v % 2 ^ 18) })
  else if o = 0x30 then wrote (s.modEther p fun x => { x with pfc := BitVec.ofNat 32 v &&& 0x000F7777 })
  else wrote s

def writeStk (s : State) (n o v : Nat) : WordWrite :=
  if o = 0x14 then
    inRange s (v % 65536 != 0) (wrote (s.modStack n fun k =>
      { k with scrubEn := bit v 31, scrubPeriod := v % 65536, fastLate := k.fastLate && bit v 31, denseLate := k.denseLate && bit v 31 }))
  else wrote s

def writeUpd (s : State) (n o v : Nat) : WordWrite :=
  if 0x100 ≤ o ∧ o < 0x300 ∧ (o - 0x100) % 64 < 28 then
    inStates s inIR (wrote (s.modUnit n fun u => u.setHp ((o - 0x100) / 64) ((o - 0x100) % 64 / 4) (BitVec.ofNat 32 v)))
  else wrote s

def writeCore (s : State) (c o v : Nat) : WordWrite :=
  if o = 0x08 then inStates s inIR (wrote (s.modCore c fun x => { x with waitLimit := v })) else wrote s

def writeArr (s : State) (c o v : Nat) : WordWrite :=
  if 0x100 ≤ o ∧ o < 0x180 then
    let k := (o - 0x100) / 4
    inStates s inIR (wrote (s.modCore c fun x => { x with epi := tput x.epi k (BitVec.ofNat 32 v &&& epiMask (k % 4)) }))
  else wrote s

/-- A write of the register at an offset of register space; fields that are not writable are passed over (R11, R207). -/
def writeReg (s : State) (off v : Nat) : WordWrite :=
  match regAt off with
  | none => wrote s
  | some (b, n, o) =>
    match b with
    | .glb => writeGlb s o v
    | .pst => writePst s o v
    | .spr => writeSpr s o v
    | .isx => writeIsx s o v
    | .ful => writeFul s n o v
    | .lnk => writeLnk s n o v
    | .eth => writeEth s n o v
    | .stk => writeStk s n o v
    | .upd => writeUpd s n o v
    | .core => writeCore s n o v
    | .arr => writeArr s n o v
    | .pwr => wrote s
    | .clk => wrote s
    | .rst => wrote s
    | .fw => wrote s
    | .cdc => wrote s
    | .idl => wrote s
    | .cip => wrote s
    | .clu => wrote s
    | .dma => wrote s
    | .vec => wrote s

/-! ### REG_READ and REG_WRITE (R207, R400, R401) -/

/-- Register space (R202). -/
def regBase : Nat := 0xF00000000000
def inRegSpace (a : Nat) : Bool := decide (regBase ≤ a ∧ a < regBase + 0x3000000)

/-- Address and count of the parameters; an access is aligned. -/
def regAddr (p : List Byte) : Nat := be p 0 8
def regCount (p : List Byte) : Nat := be p 8 2
def regOk (p : List Byte) : Bool := decide (regAddr p % 4 = 0 ∧ 1 ≤ regCount p ∧ regCount p ≤ 256)

/-- Reads words in order. -/
def readRegs : Nat → State → Nat → List Byte × State
  | 0, s, _ => ([], s)
  | n + 1, s, off =>
    let (v, s) := readReg s off
    let (l, s) := readRegs n s (off + 4)
    (beBytes 4 v ++ l, s)

def doRegRead (e : Env) (p : List Byte) (s : State) : State :=
  receive (.regRead e p) e p (anyState 0x20 16 fun p => regOk p && resv0 p 10 6) (fun s =>
    let n := regCount p
    if !inRegSpace (regAddr p) || !inRegSpace (regAddr p + 4 * n - 1) then reply s e stLimit []
    else
      let (l, s) := readRegs n s (regAddr p - regBase)
      reply s e stOk l) s
def execRegRead (e : Env) (p : List Byte) (s : State) : Out := hostCommand (.regRead e p) e s (doRegRead e p)

/-- Progress of a REG_WRITE: words written, WP words met, the persistent writes asked for with the words before each. -/
structure WriteRun where
  next : State
  status : Nat
  words : Nat
  wps : Nat
  waits : List (Nat × Nat)

/-- Writes words in order up to the first status other than OK (R444: at most 16 WP words). -/
def writeRegs : List Nat → Nat → WriteRun → WriteRun
  | [], _, r => r
  | v :: vs, a, r =>
    if !inRegSpace a then { r with status := stLimit }
    else
      let wp := (wpIndex (a - regBase)).isSome
      if wp ∧ r.wps = 16 then { r with status := stLimit }
      else
        let x := writeReg r.next (a - regBase) v
        if x.status ≠ stOk then { r with next := x.next, status := x.status }
        else
          writeRegs vs (a + 4)
            { next := x.next, status := stOk, words := r.words + 1, wps := r.wps + b2n wp
              waits := r.waits ++ x.ticket.toList.map fun t => (t, r.words) }

/-- Values of the words of a REG_WRITE. -/
def regValues (p : List Byte) : List Nat := (List.range (regCount p)).map fun k => be p (12 + 4 * k) 4

/-- A REG_WRITE: the reply gives the words written, and leaves once they are stored. -/
def serveRegWrite (e : Env) (p : List Byte) (s : State) : State :=
  let r := writeRegs (regValues p) (regAddr p) { next := s, status := stOk, words := 0, wps := 0, waits := [] }
  replyAfter r.next e r.waits r.status (beBytes 2 r.words)

def regWriteCmd (p : List Byte) : HostCmd :=
  { anyState 0x21 0 (fun p => regOk p && resv0 p 10 2) with len := fun n => n == 12 + 4 * regCount p }
def doRegWrite (e : Env) (p : List Byte) (s : State) : State :=
  receive (.regWrite e p) e p (regWriteCmd p) (serveRegWrite e p) s
def execRegWrite (e : Env) (p : List Byte) (s : State) : Out := hostCommand (.regWrite e p) e s (doRegWrite e p)

/-! ### Rows for one register: a REG_WRITE of one word -/

/-- Parameters of a REG_WRITE of one word. -/
def oneWord (off : Nat) (v : W32) : List Byte := beBytes 8 (regBase + off) ++ beBytes 2 1 ++ [0, 0] ++ beBytes 4 v.toNat

/-- The packet arrives on its port; `ok` is the check that `wellFormed` makes for the row. -/
def regRow (ok : Bool) (e : Env) (off : Nat) (v : W32) (s : State) : Out :=
  guardedBy ok s fun s =>
    if passes s e.port ∧ s.glb.state ≠ .cold then doRegWrite e (oneWord off v) (countRx s e.port) else s

def execGlbLossScale (e : Env) (v : W32) (s : State) : Out := regRow (decide (e.port < 2)) e 0x88 v s
def execGlbLsPolicy (e : Env) (v : W32) (s : State) : Out := regRow (decide (e.port < 2)) e 0x8C v s
def execCoreWaitLimit (e : Env) (c : Nat) (v : W32) (s : State) : Out :=
  regRow (decide (e.port < 2 ∧ c < 480)) e (0x2000008 + 0x1000 * c) v s
def execEpilogueSetWrite (e : Env) (c set reg : Nat) (v : W32) (s : State) : Out :=
  regRow (decide (e.port < 2 ∧ c < 480 ∧ set < 8 ∧ reg < 4)) e (0x2400100 + 0x1000 * c + 16 * set + 4 * reg) v s
def execUpdHpWrite (e : Env) (stack set field : Nat) (v : W32) (s : State) : Out :=
  regRow (decide (e.port < 2 ∧ stack < 20 ∧ set < 8 ∧ field < 7)) e (0xA00100 + 0x10000 * stack + 64 * set + 4 * field) v s
def execGlbPlanVariant (e : Env) (v : W32) (s : State) : Out := regRow (decide (e.port < 2)) e 0xC8 v s
def execGlbEvalCtl (e : Env) (v : W32) (s : State) : Out := regRow (decide (e.port < 2)) e 0xD8 v s
def execGlbCommitMark (e : Env) (v : W32) (s : State) : Out := regRow (decide (e.port < 2)) e 0xA0 v s
def execGlbMarkInterval (e : Env) (v : W32) (s : State) : Out := regRow (decide (e.port < 2)) e 0xA4 v s
def execSprLastingWindow (e : Env) (v : W32) (s : State) : Out := regRow (decide (e.port < 2)) e 0x60000 v s
def execSprLastingEvents (e : Env) (v : W32) (s : State) : Out := regRow (decide (e.port < 2)) e 0x60004 v s
def execStkScrubCtl (e : Env) (stack : Nat) (v : W32) (s : State) : Out :=
  regRow (decide (e.port < 2 ∧ stack < 20)) e (0x800014 + 0x10000 * stack) v s
def execLnkMiswirePolicy (e : Env) (v : W32) (s : State) : Out := regRow (decide (e.port < 2)) e 0x600F00 v s
def execLnkDownLimit (e : Env) (v : W32) (s : State) : Out := regRow (decide (e.port < 2)) e 0x600F04 v s
def execFulUdpPort (e : Env) (v : W32) (s : State) : Out := regRow (decide (e.port < 2)) e 0x400000 v s
def execFulRoundBase (e : Env) (v : W32) (s : State) : Out := regRow (decide (e.port < 2)) e 0x400004 v s
def execFulPace (e : Env) (v : W32) (s : State) : Out := regRow (decide (e.port < 2)) e 0x400008 v s
def execFulJoinLimit (e : Env) (v : W32) (s : State) : Out := regRow (decide (e.port < 2)) e 0x40000C v s
def execIsxUdpPort (e : Env) (v : W32) (s : State) : Out := regRow (decide (e.port < 2)) e 0x70000 v s
def execIsxIdleLimit (e : Env) (v : W32) (s : State) : Out := regRow (decide (e.port < 2)) e 0x70008 v s
def execEthIpv4 (e : Env) (ep : Nat) (v : W32) (s : State) : Out :=
  regRow (decide (e.port < 2 ∧ ep < 2)) e (0x30000C + 0x10000 * ep) v s
def execEthIpv6 (e : Env) (ep w : Nat) (v : W32) (s : State) : Out :=
  regRow (decide (e.port < 2 ∧ ep < 2 ∧ w < 4)) e (0x300010 + 0x10000 * ep + 4 * w) v s
def execEthVlan (e : Env) (ep : Nat) (v : W32) (s : State) : Out :=
  regRow (decide (e.port < 2 ∧ ep < 2)) e (0x300020 + 0x10000 * ep) v s
def execEthNexthopLo (e : Env) (ep : Nat) (v : W32) (s : State) : Out :=
  regRow (decide (e.port < 2 ∧ ep < 2)) e (0x300024 + 0x10000 * ep) v s
def execEthNexthopHi (e : Env) (ep : Nat) (v : W32) (s : State) : Out :=
  regRow (decide (e.port < 2 ∧ ep < 2)) e (0x300028 + 0x10000 * ep) v s
def execEthDscp (e : Env) (ep : Nat) (v : W32) (s : State) : Out :=
  regRow (decide (e.port < 2 ∧ ep < 2)) e (0x30002C + 0x10000 * ep) v s
def execEthPfc (e : Env) (ep : Nat) (v : W32) (s : State) : Out :=
  regRow (decide (e.port < 2 ∧ ep < 2)) e (0x300030 + 0x10000 * ep) v s
def execPstWearAddr (e : Env) (v : W32) (s : State) : Out := regRow (decide (e.port < 2)) e 0x40008 v s

/-! ### SPR_REPORT (R438) -/

def sprReportBytes (s : State) : List Byte :=
  let words := [sprSummary s, s.spr.repairCause] ++ (List.range 40).map (coreMapReg s) ++
    (List.range 40).map (bankMapReg s) ++ (List.range 20).map (fun n => pstValue s (ixDieMap n)) ++
    (List.range 48).map (lnkState s) ++ [cipStatus s 0, cipStatus s 1]
  words.flatMap (beBytes 4)

def doSprReport (e : Env) (p : List Byte) (s : State) : State :=
  receive (.sprReport e p) e p (plainCmd 0xA0 inIRUQN 0 fun _ => true) (fun s => reply s e stOk (sprReportBytes s)) s
def execSprReport (e : Env) (p : List Byte) (s : State) : Out := hostCommand (.sprReport e p) e s (doSprReport e p)

/-! ### ATTEST_QUOTE (R464) -/

/-- Bytes 0 to 203 of a quote. -/
def quoteBody (s : State) (nonce : List Byte) : List Byte :=
  beBytes 2 3 ++ beBytes 2 2624 ++ beBytes 16 Config.serial.toNat ++ nonce ++ s.fw.manifestDigest ++
  [BitVec.ofNat 8 s.fw.active,
   BitVec.ofNat 8 (b2n s.fw.trial + 2 * b2n s.glb.imageConfirmed + 4 * b2n (pstLatest s ixExchLocked != 0)), 0, 0] ++
  beBytes 4 s.fw.svn ++ beBytes 4 (pstValue s ixRollback) ++ beBytes 4 (stateWord s) ++ beBytes 4 (keyId s.keys.owner) ++
  beBytes 4 (keyId s.keys.cur) ++ beBytes 4 (keyId s.keys.old) ++ beBytes 4 (planGen s) ++
  (match s.run.plan with | some p => p.digest | none => List.replicate 32 0) ++ beBytes 8 (s.run.committed.getD 0) ++
  beBytes 8 s.now ++ beBytes 4 (pstValue s ixBoots) ++ beBytes 4 (sprSummary s) ++ List.replicate 32 0

/-- ATTEST_QUOTE (long). -/
def doAttestQuote (e : Env) (p : List Byte) (s : State) : State :=
  receive (.attestQuote e p) e p (anyState 0x93 32 fun _ => true) (fun s =>
    if !s.keys.identity || s.long.quote.isSome then reply s e stBusy []
    else { s with long := { s.long with quote := some (e, p) } }) s
def execAttestQuote (e : Env) (p : List Byte) (s : State) : Out := hostCommand (.attestQuote e p) e s (doAttestQuote e p)

/-- QUOTE_DONE: the quote is signed and sent. -/
def execQuoteDone (s : State) : Out :=
  guardedBy true s fun s =>
    match s.long.quote with
    | none => s
    | some (e, p) =>
      let body := quoteBody s p
      reply { s with long := { s.long with quote := none } } e stOk (body ++ identitySign "MQ840-QUOTE" body)

end Sys2Proof.Machine
end

