-- ==== Sys2Proof/Machine/Service.lean ====
section
/-!
DEFINITION. What ties the command families together: a packet read from the wire (STRANGER_FRAME, R391), packets held until a key is
ready or CIPHER is back (R37, R383), KEY_DERIVED (R375, R380), FN_RESET and its end (R38 to R40, R434), and the idle step (R278, R471).
-/
namespace Sys2Proof.Machine

/-! ### FN_RESET (R38, R39, R400) -/

def fnOf (p : List Byte) : Nat := be p 0 1
def fnResetCmd (p : List Byte) : HostCmd :=
  plainCmd 0x60 (if fnOf p = 0 then inAll else inIRUQN) 8 fun p => decide (fnOf p ≤ 6) && resv0 p 1 7
def doFnReset (e : Env) (p : List Byte) (s : State) : State :=
  receive (.fnReset e p) e p (fnResetCmd p) (fun s =>
    if s.inReset (fnOf p) then reply s e stBusy [] else beginReset s (fnOf p) (some e)) s
def execFnReset (e : Env) (p : List Byte) (s : State) : Out := hostCommand (.fnReset e p) e s (doFnReset e p)

/-! ### Packets by their opcode -/

/-- The command that an OPCODE names; one that the table leaves out becomes a command of another opcode and is answered
BAD_OPCODE (R400). -/
def commandOf (e : Env) (p : List Byte) : Instr :=
  if e.opcode = 0x01 then .quiesce e p
  else if e.opcode = 0x02 then .resume e p
  else if e.opcode = 0x03 then .fenceLinks e p
  else if e.opcode = 0x10 then .sessOpen e p
  else if e.opcode = 0x11 then .sessConfirm e p
  else if e.opcode = 0x12 then .sessClose e p
  else if e.opcode = 0x15 then .eventMask e p
  else if e.opcode = 0x16 then .eventRead e p
  else if e.opcode = 0x20 then .regRead e p
  else if e.opcode = 0x21 then .regWrite e p
  else if e.opcode = 0x30 then .planWrite e p
  else if e.opcode = 0x31 then .planRead e p
  else if e.opcode = 0x32 then .planCommit e p
  else if e.opcode = 0x33 then .planRelease e p
  else if e.opcode = 0x40 then .stepStart e p
  else if e.opcode = 0x41 then .stepStop e p
  else if e.opcode = 0x42 then .stepStatus e p
  else if e.opcode = 0x50 then .evalRead e p
  else if e.opcode = 0x51 then .evalStatus e p
  else if e.opcode = 0x60 then .fnReset e p
  else if e.opcode = 0x70 then .fulOpen e p
  else if e.opcode = 0x71 then .fulClose e p
  else if e.opcode = 0x72 then .fulStatus e p
  else if e.opcode = 0x80 then .fwWrite e p
  else if e.opcode = 0x81 then .fwRead e p
  else if e.opcode = 0x82 then .fwStage e p
  else if e.opcode = 0x83 then .fwStatus e p
  else if e.opcode = 0x84 then .fwManifest e p
  else if e.opcode = 0x90 then .idCert e p
  else if e.opcode = 0x91 then .idKem e p
  else if e.opcode = 0x92 then .rootProvision e p
  else if e.opcode = 0x93 then .attestQuote e p
  else if e.opcode = 0xA0 then .sprReport e p
  else if e.opcode = 0xA1 then .buddySet e p
  else if e.opcode = 0xA2 then .refillSource e p
  else if e.opcode = 0xA3 then .repairDone e p
  else if e.opcode = 0xB0 then .lnkRetrain e p
  else if e.opcode = 0xB1 then .lnkUnfence e p
  else if e.opcode = 0xB2 then .lnkIdent e p
  else if e.opcode = 0xC0 then .ingStatus e p
  else if e.opcode = 0xC1 then .ingSeek e p
  else if e.opcode = 0xC2 then .ingEndpoint e p
  else .sessPing e p

/-- Orders 6 to 8 of R391 and the service of a host command that has reached its port. -/
def serveHeld (s : State) : Instr → State
  | .quiesce e p => doQuiesce e p s
  | .resume e p => doResume e p s
  | .fenceLinks e p => doFenceLinks e p s
  | .sessOpen e p => doSessOpen e p s
  | .sessConfirm e p => doSessConfirm e p s
  | .sessClose e p => doSessClose e p s
  | .sessPing e p => doSessPing e p s
  | .eventMask e p => doEventMask e p s
  | .eventRead e p => doEventRead e p s
  | .regRead e p => doRegRead e p s
  | .regWrite e p => doRegWrite e p s
  | .planWrite e p => doPlanWrite e p s
  | .planRead e p => doPlanRead e p s
  | .planCommit e p => doPlanCommit e p s
  | .planRelease e p => doPlanRelease e p s
  | .stepStart e p => doStepStart e p s
  | .stepStop e p => doStepStop e p s
  | .stepStatus e p => doStepStatus e p s
  | .evalRead e p => doEvalRead e p s
  | .evalStatus e p => doEvalStatus e p s
  | .fnReset e p => doFnReset e p s
  | .fulOpen e p => doFulOpen e p s
  | .fulClose e p => doFulClose e p s
  | .fulStatus e p => doFulStatus e p s
  | .fwWrite e p => doFwWrite e p s
  | .fwRead e p => doFwRead e p s
  | .fwErase e p => doFwErase e p s
  | .fwStage e p => doFwStage e p s
  | .fwUnstage e p => doFwUnstage e p s
  | .fwStatus e p => doFwStatus e p s
  | .fwManifest e p => doFwManifest e p s
  | .idCert e p => doIdCert e p s
  | .idKem e p => doIdKem e p s
  | .rootProvision e p => doRootProvision e p s
  | .attestQuote e p => doAttestQuote e p s
  | .sprReport e p => doSprReport e p s
  | .buddySet e p => doBuddySet e p s
  | .refillSource e p => doRefillSource e p s
  | .refillTarget e p => doRefillTarget e p s
  | .repairDone e p => doRepairDone e p s
  | .lnkRetrain e p => doLnkRetrain e p s
  | .lnkUnfence e p => doLnkUnfence e p s
  | .lnkIdent e p => doLnkIdent e p s
  | .ingStatus e p => doIngStatus e p s
  | .ingSeek e p => doIngSeek e p s
  | .ingEndpoint e p => doIngEndpoint e p s
  | _ => s

/-- The packet that waits is an urgent one. -/
def heldUrgent (i : Instr) : Bool := match packetOf i with | some e => isaexClass e == 0 | none => false

/-- The packets of one kind that wait are checked again, oldest first; one whose key is still missing goes on waiting. -/
def releaseKind (urgent : Bool) (s : State) : State :=
  let l := s.isx.held.filter fun i => heldUrgent i == urgent
  forEach l serveHeld { s with isx := { s.isx with held := s.isx.held.filter fun i => heldUrgent i != urgent } }

/-- The packets that wait are checked again, urgent opcodes first (R37, R378, R383). -/
def releaseHeld (s : State) : State :=
  forEach [0, 1] (fun s port => releaseAt s port 1 24 (heldCount s port 1)) (releaseKind false (releaseKind true s))

/-- What waited for a key of a session goes on, urgent packets and replies before all others (R378). -/
def serveIsaex (s : State) (ctx : Nat) : State :=
  retireSessions (releaseHeld (flushSession (releaseKind true (flushUrgent s ctx)) ctx))

/-- STRANGER_FRAME (R391): a received frame is discarded at one of orders 1 to 5, or goes on as the Isaex packet that it holds; a
datagram that holds no packet of its port's protocol fails order 6, order 1 of R356, or R409. -/
def execStrangerFrame (f : Frame) (s : State) : Out :=
  guarded (.strangerFrame f) s fun s =>
    if !passes s f.port || s.glb.state == .cold then s
    else
      let s := countRx s f.port
      match strangerDrop s f with
      | some s => s
      | none =>
        match f.transport, f.isaex with
        | .udp dport _ _, some (e, p) => if dport = s.isx.port ∧ e.port = f.port then serveHeld s (commandOf e p) else s
        | .udp dport _ _, none =>
          if dport = s.isx.port then dropCtx s
          else if dport = pstValue s ixFulPort then fulDropCtx s f.port
          else dropIngest s f.port
        | _, _ => s

/-- PLL_RELOCK (R485): the domain goes on; with the management clock back, the packets that waited for
it are served, and a port sends what waited. -/
def execPllRelock (dom : PllDomain) (inst : Nat) (s : State) : Out :=
  guardedBy (decide (inst < dom.count)) s fun s =>
    if pllFed s then
      let s := { s with pwr := { s.pwr with unlocked := s.pwr.unlocked.filter fun x => x != (dom, inst) } }
      if dom = .ioDie then releaseHeld s
      else if dom = .link then
        flushPort (if 3 ≤ (s.port inst).state ∧ (s.port inst).identSent = false then sendIdent s inst else s) inst
      else s
    else s

/-! ### KEY_DERIVED (R375, R380) -/

/-- An epoch joins a list of epochs held. -/
def holdEpoch (l : List Nat) (e : Nat) : List Nat := if l.contains e then l else l ++ [e]

/-- A sending key of a Fuelle session is held; a PAUSED session whose next packet it seals goes on (R344, R375), with the packets that
waited for it (R374). -/
def fuelleTxReady (s : State) (ctx epoch : Nat) : State :=
  let s := s.modFuelle ctx fun c => { c with txEpochs := holdEpoch c.txEpochs epoch }
  let c := s.fuelle ctx
  if epoch ≠ epochOf c.txCount then s
  else
    let s := if c.state = 4 then raiseOpen (s.modFuelle ctx fun c => { c with state := c.before }) 11 else s
    forEach c.due (fun s p => fulSend s ctx p) (s.modFuelle ctx fun c => { c with due := [] })

/-- The offer key of a salt of this end is held: an OFFER that waited for it goes out. -/
def offerTxReady (s : State) (ctx : Nat) (salt : W64) : State :=
  let c := s.fuelle ctx
  if c.saltOwn ≠ salt then s
  else
    let s := s.setFuelle ctx { c with offerTx := true }
    if c.offerDue then sendFulOffer s ctx else s

/-- The offer key of a peer's salt is held in the place of the last one. -/
def offerRxReady (s : State) (ctx : Nat) (salt : W64) : State :=
  let s := dropUses s (portOf ctx) fun k => k.use == 2 && k.ctx == ctx && !k.mine
  s.modFuelle ctx fun c => { c with offerRx := salt, erased := false }

/-- A key enters the cache; what waited for it goes on. -/
def keyReady (s : State) (iod : Nat) (r : KdfReq) : State :=
  let s := countDerived s iod 1
  match r with
  | .isaex ctx epoch toHost =>
    let z := s.session ctx
    if z.state = .free then s
    else
      let s := s.setSession ctx
        (if toHost then { z with txEpochs := holdEpoch z.txEpochs epoch } else { z with epochs := holdEpoch z.epochs epoch })
      serveIsaex (if epoch = 0 then replyOpening s ctx else s) ctx
  | .fuelleRx ctx epoch =>
    if (s.fuelle ctx).state = 0 then s
    else releaseC3 (s.modFuelle ctx fun c => { c with rxEpochs := holdEpoch c.rxEpochs epoch, erased := false }) iod
  | .fuelleTx ctx epoch => if (s.fuelle ctx).state = 0 then s else fuelleTxReady s ctx epoch
  | .offerRx ctx salt => if (s.fuelle ctx).state = 0 then s else releaseC3 (offerRxReady s ctx salt) iod
  | .offerTx ctx salt => if (s.fuelle ctx).state = 0 then s else offerTxReady s ctx salt

/-- KEY_DERIVED: the unit of a die ends the request at the head of its queue; not while CIPHER is in reset. -/
def execKeyDerived (iod : Nat) (s : State) : Out :=
  guarded (.keyDerived iod) s fun s =>
    match (s.cipher iod).kdf with
    | [] => s
    | r :: _ => if s.inReset 6 then s else keyReady (s.modCipher iod Cip.take) iod r

/-! ### FN_RESET_END (R434) -/

/-- What goes on when a function is back (R37, R403, R431). -/
def afterReset (s : State) (fn : Nat) : State :=
  if fn = 0 then sendUnsent s
  else
  let s := if fn = 3 then retrainAgain s else s
  if fn = 6 then releaseHeld s
  else if (fn = 2 ∨ fn = 3) ∧ runInProgress s = true ∧ s.run.phase = 4 ∧ s.run.reflectDone = false ∧ s.run.abandoned = false then restartReflect s
  else s

/-- FN_RESET_END. -/
def execFnResetEnd (fn : Nat) (s : State) : Out :=
  guarded (.fnResetEnd fn) s fun s =>
    match tfind s.long.fnReset fn with
    | none => s
    | some e =>
      let s := { s with
        glb := { s.glb with fnReset := s.glb.fnReset &&& ~~~(1#7 <<< fn) }
        long := { s.long with fnReset := s.long.fnReset.filter fun x => x.1 != fn } }
      let s := tryConfirm (afterReset s fn)
      match e with
      | some e => reply s e stOk []
      | none => s

/-! ### The idle step (R278, R471; log 10) -/

/-- The bundle at the PC is held by its KICK (R166). -/
def heldByKick (s : State) (c : Nat) : Bool :=
  let x := s.core c
  let raw := fetch s c
  coreRuns s c && x.bun.isNone && (readP x c (bpredOf raw)).getLsbD 0 && bundleValid x raw && !loopTooDeep x c raw && kickHeld s c raw

/-- The cause under which a core counts the cycles of an idle tick, in the order of R278, those of a dip under thermal in each case
(R479); none where it has a bundle in progress, or one to issue (log 44). A core without one is parked from the start of parking on.
DESIGN CHOICE (log 44): spec/ names no cause for a core that waits for the rerun of an abandoned attempt; it counts under END_CAUSE. -/
def idleCause (s : State) (c : Nat) : Option Nat :=
  let x := s.core c
  if s.pwr.dip then some 7
  else if s.glb.state == .quiesced && x.bun.isNone then some 6
  else if s.pwr.holdBrick.getLsbD (c / 48) then some 7
  else if x.waiting.isSome || heldByKick s c then some (waitCause (fetch s c))
  else if s.upd.any fun e => e.2.restoring then some 3
  else if !x.active || x.ended || (s.run.abandoned && x.bun.isNone) then some x.endCause
  else none

/-- The 20 cycles of a tick at full rate; at half rate one half of them counts under thermal. -/
def countCycles (s : State) (c : Nat) : State :=
  match idleCause s c with
  | none => s
  | some k =>
    let half := s.pwr.stretch.getLsbD (c / 48)
    s.modCore c fun x =>
      let t := tmod 0 x.idle k (· + (if half then 10 else 20))
      { x with idle := if half then tmod 0 t 7 (· + 10) else t }

/-- What a tick does on the Ethernet ports: pauses end, and packets of C2 land (R389, R390). -/
def etherTick (s : State) : State := forEach [0, 1] (fun s port => drainC2 (flushEgress s port) port) s

/-- An idle tick of the block. -/
def idleTick (s : State) : State :=
  if !s.pwr.refPresent then s
  else
    let s := if s.glb.state = .running ∨ s.glb.state = .quiesced then forEach (List.range 480) countCycles s else s
    tryConfirm (pumpIngest (etherTick (linkTick (copyTick (updateTick (runAllNops (idle s)))))))

end Sys2Proof.Machine
end

