-- ==== Sys2Proof/Machine/Vector.lean ====
section
/-!
DEFINITION. The vector engine (R137 to R160): the slots ve0 and ve1. Each op reads its sources at issue, forms its
results, and sends them on their way with its latency.
-/
namespace Sys2Proof.Machine

/-! ### Operands of a vector slot -/

/-- A vector op as it reads its operands. -/
structure VIn where
  x : Core
  c : Nat
  w : Nat
  mask : BitVec 512

def VIn.fmt (v : VIn) : Nat := bits v.w 51 49
def VIn.fmt2 (v : VIn) : Nat := bits v.w 54 52
def VIn.imm (v : VIn) : Nat := bits v.w 91 76
def VIn.ss (v : VIn) : Nat := bits v.w 60 55
def VIn.pz (v : VIn) : Bool := bit v.w 12
def VIn.acc (v : VIn) : Bool := bit v.imm 8
/-- Elements of a register in FMT (R137). -/
def VIn.n (v : VIn) : Nat := 1024 / halves v.fmt
/-- The scalar S(SS), and its half chosen by HI (R140, R144). -/
def VIn.scalar (v : VIn) : W64 := readS v.x v.c v.ss
def VIn.scalarHi (v : VIn) : W32 := BitVec.ofNat 32 (v.scalar.toNat / 2 ^ 32)
def VIn.scalarLo (v : VIn) : W32 := v.scalar.setWidth 32
def VIn.half (v : VIn) : W32 := if bit v.imm 0 then v.scalarHi else v.scalarLo
/-- Element i takes part. -/
def VIn.on (v : VIn) (i : Nat) : Bool := v.mask.getLsbD i

/-- Code of element i of a register in a format, from byte `base` on (R137). -/
def elemCode (x : Core) (c fmt base i : Nat) : Nat :=
  if fmt = 4 then
    let b := (readV x c (base + i / 2)).toNat
    if i % 2 = 0 then b % 16 else b / 16
  else
    let w := halves fmt / 2
    leNat (readVs x c (base + i * w) w)

/-- Elements of VA, VB and VC. -/
def VIn.a (v : VIn) (i : Nat) : Nat := elemCode v.x v.c v.fmt (512 * bits v.w 30 22) i
def VIn.b (v : VIn) (i : Nat) : Nat := elemCode v.x v.c v.fmt (512 * bits v.w 39 31) i
def VIn.d (v : VIn) (i : Nat) : Nat := elemCode v.x v.c v.fmt (512 * bits v.w 48 40) i

/-- Value of a code in a format. -/
def valueOf (fmt code : Nat) : Num :=
  match NumFmt.ofCode fmt with
  | some f => decodeNum f code
  | none => .nan

/-- The results of a vector op: bytes of VD from an offset on with the bits written, bits of P(VD), scalars with the bits
written, and the row status. -/
structure VOut where
  off : Nat
  vd : Option (List (Byte × Byte))
  pd : Option (BitVec 512 × BitVec 512)
  sc : List (Nat × W64 × W64)
  st : Status
  /-- A result of raw bits is the canonical NaN of FMT, which sets no status bit and is counted (R144, R160). -/
  rawNan : Bool

/-- No result. -/
def VOut.none : VOut := { off := 0, vd := .none, pd := .none, sc := [], st := .none, rawNan := false }

/-- Packs elements with the bits that are written; an element that is left unchanged is none (R151). -/
def packMasked (fmt : Nat) : List (Option Nat) → List (Byte × Byte)
  | [] => []
  | [a] =>
    if fmt = 4 then [(BitVec.ofNat 8 (a.getD 0 % 16), if a.isSome then 0x0F else 0)]
    else (leBytes (halves fmt / 2) (a.getD 0)).map fun y => (y, if a.isSome then 0xFF else 0)
  | a :: b :: r =>
    if fmt = 4 then
      (BitVec.ofNat 8 (a.getD 0 % 16 + 16 * (b.getD 0 % 16)), (if a.isSome then 0x0F else 0) ||| (if b.isSome then 0xF0 else 0)) ::
        packMasked fmt r
    else ((leBytes (halves fmt / 2) (a.getD 0)).map fun y => (y, if a.isSome then 0xFF else 0)) ++ packMasked fmt (b :: r)

/-- An element-wise result over n elements: masked elements as R151 states. -/
def elements (v : VIn) (n : Nat) (f : Nat → Nat × Status) : List (Option Nat) × Status :=
  let l := (List.range n).map fun i => if v.on i then (some (f i).1, (f i).2) else ((if v.pz then some 0 else .none), Status.none)
  (l.map (·.1), l.foldl (fun a r => a.or r.2) .none)

/-- A vector op with one result in VD. -/
def toVd (v : VIn) (f : Nat → Nat × Status) : VOut :=
  let (l, st) := elements v v.n f
  { VOut.none with vd := some (packMasked v.fmt l), st := st }

/-- FP32 result converted to FMT (R138, R145); in FP32 it is no conversion, and a NaN sets NAN alone. -/
def fromF32 (fmt : Nat) (r : W32) : Nat × Status :=
  match NumFmt.ofCode fmt with
  | some .fp32 => roundTo .fp32 (ofF32 r)
  | some f => let (c, st) := convertNum f false (ofF32 r); (c, { st with ovf := false })
  | none => (0, .none)

/-- An exact result rounded once to FMT (R138). -/
def exactTo (fmt : Nat) (x : Num) : Nat × Status :=
  match NumFmt.ofCode fmt with
  | some f => roundTo f x
  | none => (0, .none)

/-- A code passed on: a NaN is written as the canonical one (R47). -/
def passCode (fmt code : Nat) : Nat × Status :=
  match NumFmt.ofCode fmt with
  | some f => if f.isInt then (code, .none) else if (decodeNum f code).isNan then (f.nanCode, { Status.none with nan := true }) else (code, .none)
  | none => (code, .none)

/-! ### Element-wise ops (R144) -/

/-- Element of an arithmetic op: integers wrap, floating values are exact and rounded once. -/
def arith (v : VIn) (int : Nat → Nat) (flt : Nat → Num) (i : Nat) : Nat × Status :=
  if v.fmt = 6 then (int i % 2 ^ 32, .none) else exactTo v.fmt (flt i)

/-- Floating values of element i. -/
def VIn.fa (v : VIn) (i : Nat) : Num := valueOf v.fmt (v.a i)
def VIn.fb (v : VIn) (i : Nat) : Num := valueOf v.fmt (v.b i)
def VIn.fd (v : VIn) (i : Nat) : Num := valueOf v.fmt (v.d i)

/-- Signed value of an INT32 code, and back. -/
def sInt (code : Nat) : Int := signedOf 32 (code % 2 ^ 32)
def uInt (i : Int) : Nat := (i % 2 ^ 32).toNat

def vAddOut (v : VIn) : VOut := toVd v (arith v (fun i => v.a i + v.b i) fun i => (v.fa i).add (v.fb i))
def vSubOut (v : VIn) : VOut := toVd v (arith v (fun i => v.a i + 2 ^ 32 - v.b i) fun i => (v.fa i).add (v.fb i).neg)
def vMulOut (v : VIn) : VOut := toVd v (arith v (fun i => v.a i * v.b i) fun i => (v.fa i).mul (v.fb i))
def vFmaOut (v : VIn) : VOut := toVd v fun i => exactTo v.fmt (((v.fa i).mul (v.fb i)).add (v.fd i))
def vMinOut (v : VIn) : VOut :=
  toVd v (arith v (fun i => if sInt (v.b i) < sInt (v.a i) then v.b i else v.a i) fun i => Num.min2 (v.fa i) (v.fb i))
def vMaxOut (v : VIn) : VOut :=
  toVd v (arith v (fun i => if sInt (v.a i) < sInt (v.b i) then v.b i else v.a i) fun i => Num.max2 (v.fa i) (v.fb i))
def vAbsOut (v : VIn) : VOut :=
  toVd v (arith v (fun i => (sInt (v.a i)).natAbs) fun i => (v.fa i).abs)
def vNegOut (v : VIn) : VOut := toVd v (arith v (fun i => 2 ^ 32 - v.a i % 2 ^ 32) fun i => (v.fa i).neg)
def vAddsOut (v : VIn) : VOut :=
  toVd v (arith v (fun i => v.a i + v.half.toNat) fun i => (v.fa i).add (ofF32 v.half))
def vMulsOut (v : VIn) : VOut :=
  toVd v (arith v (fun i => v.a i * v.half.toNat) fun i => (v.fa i).mul (ofF32 v.half))

/-- A result of DIV or SQRT: the NaN of R145's table, which comes of operands that are none, is an FP32 value that is then converted to
FMT (R50, R51); any other result is exact and rounded once. -/
def quotientTo (fmt : Nat) (operandNan : Bool) (r : Num) : Nat × Status :=
  if r.isNan && !operandNan then fromF32 fmt 0x7FC00000 else exactTo fmt r
def vDivOut (v : VIn) : VOut :=
  toVd v fun i => quotientTo v.fmt ((v.fa i).isNan || (v.fb i).isNan) ((v.fa i).div (v.fb i))
def vSqrtOut (v : VIn) : VOut := toVd v fun i => quotientTo v.fmt (v.fa i).isNan (v.fa i).sqrt

/-- A floating function computed in FP32 to a stated accuracy, then converted to FMT. -/
def vFunOut (op bound : Nat) (f : Num → Num) (v : VIn) : VOut :=
  toVd v fun i => fromF32 v.fmt (approx32 op bound f (toF32 (v.fa i)))

/-- 1 as a value. -/
def numOne : Num := .fin false 1 0

def vRcpOut (v : VIn) : VOut := vFunOut 0x0D 1 (fun x => numOne.div x) v
def vRsqrtOut (v : VIn) : VOut := vFunOut 0x0E 1 (fun x => numOne.div x.sqrt) v
def vReluOut (v : VIn) : VOut :=
  toVd v (arith v (fun i => if sInt (v.a i) > 0 then v.a i else 0) fun i => reluNum (v.fa i))

/-- The code is the canonical NaN of the format. -/
def isCanonNan (fmt code : Nat) : Bool := (fmt == 0 && code == 0x7FC00000) || (fmt == 1 && code == 0x7FC0) || ((fmt == 2 || fmt == 3) && code == 0x7F)

/-- A bitwise op: it sets no status bit, and counts as an op with a NaN where an unmasked result is one (R144, R160). -/
def vBitsOut (f : Nat → Nat → Nat) (v : VIn) : VOut :=
  { toVd v (fun i => (f (v.a i) (v.b i), .none)) with
    rawNan := (List.range v.n).any fun i => v.on i && isCanonNan v.fmt (f (v.a i) (v.b i)) }

def vAndOut (v : VIn) : VOut := vBitsOut (· &&& ·) v
def vOrOut (v : VIn) : VOut := vBitsOut (· ||| ·) v
def vXorOut (v : VIn) : VOut := vBitsOut (· ^^^ ·) v
def vShlOut (v : VIn) : VOut := toVd v fun i => (v.a i * 2 ^ (v.b i % 32) % 2 ^ 32, .none)
def vShrOut (v : VIn) : VOut := toVd v fun i => (v.a i / 2 ^ (v.b i % 32), .none)
def vSraOut (v : VIn) : VOut := toVd v fun i => (uInt (Int.fdiv (sInt (v.a i)) (2 ^ (v.b i % 32))), .none)
def vPopcOut (v : VIn) : VOut := toVd v fun i => (popCount 32 (v.a i), .none)

/-! ### Compare, select and predicate ops (R146) -/

/-- A predicate result over the first n bits; bits beyond are written 0, masked bits as PZ states. -/
def toPd (v : VIn) (n : Nat) (f : Nat → Bool) : VOut :=
  let sum (g : Nat → Bool) : BitVec 512 := BitVec.ofNat 512 (((List.range 512).map fun i => if g i then 2 ^ i else 0).sum)
  { VOut.none with
    pd := some (sum fun i => decide (i < n) && v.on i && f i, sum fun i => decide (n ≤ i) || v.on i || v.pz) }

def vCmpOut (xop : Nat) (v : VIn) : VOut := toPd v v.n fun i => compares xop (v.fa i) (v.fb i)
def vSelOut (v : VIn) : VOut :=
  let p := readP v.x v.c (bits v.imm 3 0)
  toVd v fun i => passCode v.fmt (if p.getLsbD i then v.a i else v.b i)

/-- The predicates that PAND to PNOT read. -/
def VIn.pa (v : VIn) : BitVec 512 := readP v.x v.c (bits v.w 25 22)
def VIn.pb (v : VIn) : BitVec 512 := readP v.x v.c (bits v.w 34 31)

def vPandOut (v : VIn) : VOut := toPd v 512 fun i => v.pa.getLsbD i && v.pb.getLsbD i
def vPorOut (v : VIn) : VOut := toPd v 512 fun i => v.pa.getLsbD i || v.pb.getLsbD i
def vPxorOut (v : VIn) : VOut := toPd v 512 fun i => v.pa.getLsbD i != v.pb.getLsbD i
def vPnotOut (v : VIn) : VOut := toPd v 512 fun i => !v.pa.getLsbD i
def vIsnanOut (v : VIn) : VOut := toPd v v.n fun i => (v.fa i).isNan
def vPfirstOut (v : VIn) : VOut := toPd v 512 fun i => decide (i < Nat.min 512 v.scalar.toNat)
def VIn.seg (v : VIn) : BitVec 512 := readP v.x v.c (bits v.w 75 72)
def vPtailOut (v : VIn) : VOut := toPd v v.n fun i => decide (i + 1 = v.n) || v.seg.getLsbD (i + 1)

/-! ### Conversions (R147) -/

/-- Elements of a conversion, and where the narrower side lies: byte offset in its register. -/
def cvtCount (v : VIn) : Nat := 1024 / Nat.max (halves v.fmt) (halves v.fmt2)
def cvtOffset (v : VIn) : Nat :=
  let n := cvtCount v
  let narrow := Nat.min (halves v.fmt) (halves v.fmt2)
  let parts := 1024 / (n * narrow)
  (bits v.imm 3 0 % parts) * (n * narrow / 2)

/-- Source element i of a conversion. -/
def cvtSrc (v : VIn) (i : Nat) : Nat :=
  elemCode v.x v.c v.fmt (512 * bits v.w 30 22 + (if halves v.fmt < halves v.fmt2 then cvtOffset v else 0)) i

/-- A conversion with the value of element i before it. -/
def convertOut (v : VIn) (f : Nat → Num) : VOut :=
  match NumFmt.ofCode v.fmt2 with
  | none => .none
  | some g =>
    let (l, st) := elements v (cvtCount v) fun i => convertNum g (bit v.w 61) (f i)
    { VOut.none with off := (if halves v.fmt2 < halves v.fmt then cvtOffset v else 0), vd := some (packMasked v.fmt2 l), st := st }

def vCvtOut (v : VIn) : VOut := convertOut v fun i => valueOf v.fmt (cvtSrc v i)

/-- Absolute maximum of unmasked elements, combined with the prior one where ACC is set (R147, R60). -/
def amaxOf (v : VIn) (l : List Num) : W32 :=
  let m := l.foldl (fun m x => Num.max2 m x.abs) (.fin false 0 0)
  toF32 (if v.acc then Num.max2 m (ofF32 v.scalarHi) else m)

/-- Unmasked source values of a conversion of n elements. -/
def unmasked (v : VIn) (n : Nat) (f : Nat → Num) : List Num := ((List.range n).filter v.on).map f

/-- The second result of QCVT and AMAX: bits [63:32] of S(SS). -/
def withAmax (v : VIn) (l : List Num) (o : VOut) : VOut :=
  let m := amaxOf v l
  { o with
    sc := [(v.ss, BitVec.ofNat 64 (m.toNat * 2 ^ 32), 0xFFFFFFFF00000000)]
    st := { o.st with empty := l.isEmpty, nan := o.st.nan || (ofF32 m).isNan } }

/-- QCVT. DESIGN CHOICE (log 75): R60 and R147 do not say whether the product VA[i] × scale is rounded to FP32 before it is
converted, as R129 says of an epilogue; here it is. -/
def vQcvtOut (v : VIn) : VOut :=
  let src (i : Nat) : Num := valueOf v.fmt (cvtSrc v i)
  withAmax v (unmasked v (cvtCount v) src) (convertOut v fun i => ofF32 (toF32 ((src i).mul (ofF32 v.scalarLo))))
def vAmaxOut (v : VIn) : VOut := withAmax v (unmasked v v.n v.fa) .none

/-! ### Reductions (R152 to R154) -/

/-- Levels of the tree over n elements. -/
def levels (n : Nat) : Nat := Nat.log2 n

/-- No element takes part. -/
def VIn.empty (v : VIn) : Bool := (List.range v.n).all fun i => !v.on i

/-- FMT is an integer format. -/
def VIn.isInt (v : VIn) : Bool := v.fmt == 5 || v.fmt == 6

/-- Element i widened to FP32, or to INT32. -/
def VIn.f32 (v : VIn) (i : Nat) : W32 := toF32 (v.fa i)
def VIn.i32 (v : VIn) (i : Nat) : Nat := if v.fmt = 5 then uInt (signedOf 8 (v.a i)) else v.a i

/-- Scalar result of a reduction (R153). -/
def reduceOut (v : VIn) (lo hi : Nat) (nan : Bool) (sat : Bool) : VOut :=
  { VOut.none with
    sc := [(v.ss, BitVec.ofNat 64 (lo + hi * 2 ^ 32), BitVec.allOnes 64)]
    st := { Status.none with nan := nan, sat := sat, empty := v.empty } }

/-- A floating reduction: identity, element map, node. -/
def reduceF (v : VIn) (ident : W32) (f : W32 → W32) (node : W32 → W32 → W32) : VOut :=
  let r := (tree node (levels v.n) ((List.range v.n).map fun i => if v.on i then f (v.f32 i) else ident)).headD ident
  let r := if v.acc then node r v.scalarLo else r
  reduceOut v r.toNat 0 (ofF32 r).isNan false

/-- An integer reduction. DESIGN CHOICE (log 75): with every element masked and ACC = 0, R69 gives −128 and 127 for INT8, and
R154 −2^31 and 2^31 − 1 for the arg reductions; RMAX and RMIN widen INT8 to INT32 (R152), so here they give the INT32
identities, with SAT. -/
def reduceI (v : VIn) (ident : Nat) (node : Nat → Nat → Nat) (sat : Bool) : VOut :=
  let r := (tree node (levels v.n) ((List.range v.n).map fun i => if v.on i then v.i32 i else ident)).headD ident
  let r := if v.acc then node r v.scalarLo.toNat else r
  reduceOut v r (if r ≥ 2 ^ 31 then 2 ^ 32 - 1 else 0) false (sat && v.empty && !v.acc)

/-- Maximum and minimum under R69. -/
def max32 (a b : W32) : W32 := toF32 (Num.max2 (ofF32 a) (ofF32 b))
def min32 (a b : W32) : W32 := toF32 (Num.min2 (ofF32 a) (ofF32 b))
def maxI (a b : Nat) : Nat := if sInt a < sInt b then b else a
def minI (a b : Nat) : Nat := if sInt b < sInt a then b else a

def vRsumOut (v : VIn) : VOut :=
  if v.isInt then reduceI v 0 (fun a b => (a + b) % 2 ^ 32) false else reduceF v 0 id add32
def vRsumsqOut (v : VIn) : VOut := reduceF v 0 (fun x => mul32 x x) add32
def vRprodOut (v : VIn) : VOut := reduceF v 0x3F800000 id mul32
/-- RMAX and RMIN; over an INT8 register with every element masked they give the INT32 identities (DESIGN CHOICE, log 75). -/
def vRmaxOut (v : VIn) : VOut := if v.isInt then reduceI v 0x80000000 maxI true else reduceF v 0xFF800000 id max32
def vRminOut (v : VIn) : VOut := if v.isInt then reduceI v 0x7FFFFFFF minI true else reduceF v 0x7F800000 id min32

/-- A candidate of an arg reduction: value as a number, code, index. -/
abbrev Cand := Num × Nat × Nat

/-- The better of two candidates: a NaN before numbers, then the extreme value, then the lower index (R69, R154). -/
def better (mx : Bool) (a b : Cand) : Cand :=
  if a.1.isNan && b.1.isNan then (if b.2.2 < a.2.2 then b else a)
  else if a.1.isNan then a
  else if b.1.isNan then b
  else
    let bWins := if mx then Num.lt true a.1 b.1 else Num.lt true b.1 a.1
    let aWins := if mx then Num.lt true b.1 a.1 else Num.lt true a.1 b.1
    if bWins then b else if aWins then a else if b.2.2 < a.2.2 then b else a

def vRargOut (mx : Bool) (v : VIn) : VOut :=
  let f32 : Bool := !v.isInt
  let identCode : Nat := if f32 then (if mx then 0xFF800000 else 0x7F800000) else (if mx then 0x80000000 else 0x7FFFFFFF)
  let val (code : Nat) : Num := if f32 then ofF32 (BitVec.ofNat 32 code) else .ofInt (sInt code)
  let ident : Cand := (val identCode, identCode, 0xFFFFFFFF)
  let cands : List Cand := ((List.range v.n).filter v.on).map fun i =>
    let code := if f32 then (v.f32 i).toNat else v.i32 i
    (val code, code, bits v.imm 7 0 * v.n + i)
  let r := cands.foldl (better mx) ident
  let r := if v.acc then better mx r (val v.scalarLo.toNat, v.scalarLo.toNat, v.scalarHi.toNat) else r
  let code := if f32 then (toF32 r.1).toNat else r.2.1
  reduceOut v code r.2.2 r.1.isNan (!f32 && v.empty && !v.acc)

/-! ### Scans (R155, R156) -/

/-- Runs a scan from element i on: outputs (before, after) and the running value. The list of elements is the fuel. -/
def scanRun (v : VIn) (start : Nat) (step : Nat → Nat → Nat) : List Nat → Nat → List (Nat × Nat) × Nat
  | [], run => ([], run)
  | i :: r, run =>
    let base := if bit v.imm 9 && v.seg.getLsbD i then start else run
    let after := if v.on i then step base i else base
    let (l, last) := scanRun v start step r after
    ((base, after) :: l, last)

/-- A scan: identity and combination in FP32 and in INT32; exclusive scans output the value before the element. A NaN carry is
passed on as the canonical one (R47). -/
def scanOut (v : VIn) (identF identI : Nat) (nodeF : W32 → W32 → W32) (nodeI : Nat → Nat → Nat) (exclusive : Bool) : VOut :=
  let int := v.fmt == 6
  let ident := if int then identI else identF
  let carry := if !v.acc then ident else if int then v.scalarLo.toNat else (toF32 (ofF32 v.scalarLo)).toNat
  let step (run i : Nat) : Nat := if int then nodeI run (v.a i) else (nodeF (BitVec.ofNat 32 run) (v.f32 i)).toNat
  let (l, last) := scanRun v ident step (List.range v.n) carry
  let out (i : Nat) : Nat × Status :=
    let p := l.getD i (0, 0)
    let r := if exclusive then p.1 else p.2
    if int then (r, .none) else fromF32 v.fmt (BitVec.ofNat 32 r)
  let o := toVd v out
  let lastNan := !int && (ofF32 (BitVec.ofNat 32 last)).isNan
  { o with
    sc := [(v.ss, BitVec.ofNat 64 last, BitVec.allOnes 64)]
    st := { o.st with empty := v.empty, nan := o.st.nan || lastNan } }

def vScansumOut (v : VIn) : VOut := scanOut v 0 0 add32 (fun a b => (a + b) % 2 ^ 32) false
def vScansumxOut (v : VIn) : VOut := scanOut v 0 0 add32 (fun a b => (a + b) % 2 ^ 32) true
def vScanmaxOut (v : VIn) : VOut := scanOut v 0xFF800000 0x80000000 max32 maxI false
def vScanminOut (v : VIn) : VOut := scanOut v 0x7F800000 0x7FFFFFFF min32 minI false

/-! ### Soft maximum (R70, R157, R158) -/

def nan32 : W32 := 0x7FC00000
def posInf : W32 := 0x7F800000
def negInf : W32 := 0xFF800000
def isNan32 (w : W32) : Bool := (ofF32 w).isNan

/-- Maximum of unmasked elements, −∞ where there is none. -/
def rowMax (v : VIn) : W32 := ((List.range v.n).filter v.on).foldl (fun m i => max32 m (v.f32 i)) negInf

/-- Pairwise sum with masked terms +0. -/
def rowSum (v : VIn) (f : Nat → W32) : W32 :=
  (tree add32 (levels v.n) ((List.range v.n).map fun i => if v.on i then f i else 0)).headD 0

/-- A row result in FMT2; masked positions are +0 where `zero` is set. -/
def rowOut (v : VIn) (zero : Bool) (f : Nat → W32) : VOut :=
  let l := (List.range v.n).map fun i =>
    if v.on i then (let r := fromF32 v.fmt2 (f i); (some r.1, r.2)) else ((if zero || v.pz then some 0 else .none), Status.none)
  { VOut.none with vd := some (packMasked v.fmt2 (l.map (·.1))), st := l.foldl (fun a r => a.or r.2) .none }

/-- SOFTMAX (R70). DESIGN CHOICE (log 79): R70 names only the exponential, the sum and the division as rounded; here the difference
x[i] - m is rounded to FP32 too, as OSSTEP takes it. -/
def vSoftmaxOut (v : VIn) : VOut :=
  let m := rowMax v
  if isNan32 m then rowOut v true fun _ => nan32
  else if m = negInf then
    let o := rowOut v true fun _ => 0
    { o with st := { o.st with void := true } }
  else if m = posInf then
    let k := (((List.range v.n).filter v.on).filter fun i => v.f32 i == posInf).length
    let q := toF32 (numOne.div (.fin false k 0))
    rowOut v true fun i => if v.f32 i = posInf then q else 0
  else
    let z := rowSum v fun i => exp32 (sub32 (v.f32 i) m)
    rowOut v true fun i => div32 (exp32 (sub32 (v.f32 i) m)) z

/-- shift_exp and rescale of R158. -/
def shiftExp (x m : W32) : W32 :=
  if isNan32 x || isNan32 m then nan32
  else if m = posInf then (if x = posInf then 0x3F800000 else 0)
  else if x = negInf then 0
  else exp32 (sub32 x m)

def rescale (old new : W32) : W32 :=
  if isNan32 old || isNan32 new then nan32
  else if (ofF32 old).eqv (ofF32 new) then 0x3F800000
  else if old = negInf ∨ new = posInf then 0
  else exp32 (sub32 old new)

/-- Two FP32 values in one scalar register: low and high. -/
def pairS (lo hi : W32) : W64 := BitVec.ofNat 64 (lo.toNat + hi.toNat * 2 ^ 32)

def vOsstepOut (v : VIn) : VOut :=
  let m := v.scalarLo
  let z := v.scalarHi
  let mNew := max32 m (rowMax v)
  let p (i : Nat) : W32 := shiftExp (v.f32 i) mNew
  let a := rescale m mNew
  let zNew := add32 (mul32 z a) (rowSum v p)
  let o := rowOut v false p
  { o with
    sc := [(v.ss, pairS mNew zNew, BitVec.allOnes 64), (v.ss + 1, pairS a 0, BitVec.allOnes 64)]
    st := { o.st with empty := v.empty, nan := o.st.nan || isNan32 mNew || isNan32 zNew || isNan32 a } }

def vOsmergeOut (v : VIn) : VOut :=
  let s2 := readS v.x v.c (v.ss + 1)
  let m1 := v.scalarLo
  let z1 := v.scalarHi
  let m2 : W32 := s2.setWidth 32
  let z2 : W32 := BitVec.ofNat 32 (s2.toNat / 2 ^ 32)
  let m := max32 m1 m2
  let a1 := rescale m1 m
  let a2 := rescale m2 m
  let z := add32 (mul32 z1 a1) (mul32 z2 a2)
  { VOut.none with
    sc := [(v.ss, pairS m z, BitVec.allOnes 64), (v.ss + 1, pairS a1 a2, BitVec.allOnes 64)]
    st := { Status.none with nan := isNan32 m || isNan32 z || isNan32 a1 || isNan32 a2 } }

/-- OSNORM (R158). DESIGN CHOICE (log 79): for an unmasked NaN with z = 0 the pseudocode gives +0 and the prose NaN; this is the
pseudocode. -/
def vOsnormOut (v : VIn) : VOut :=
  let m := v.scalarLo
  let z := v.scalarHi
  if isNan32 m then rowOut v false fun _ => nan32
  else if (ofF32 z).isZero then
    let o := rowOut v false fun _ => 0
    { o with st := { o.st with void := true } }
  else rowOut v false fun i => div32 (v.f32 i) z

/-! ### Moves (R150) -/

def vMovOut (v : VIn) : VOut := toVd v fun i => passCode v.fmt (v.a i)
def vBcastOut (v : VIn) : VOut :=
  toVd v fun _ =>
    if v.fmt = 5 then (v.half.toNat % 256, .none) else if v.fmt = 6 then (v.half.toNat, .none) else fromF32 v.fmt v.half

/-- Element number of MOVSV, MOVVS and ROT. -/
def VIn.elem (v : VIn) : Nat := bits v.imm 8 0 % v.n

def vMovsvOut (v : VIn) : VOut :=
  let code := v.a v.elem
  { VOut.none with sc := [(v.ss, BitVec.ofNat 64 code, BitVec.allOnes 64)], st := { Status.none with nan := isCanonNan v.fmt code } }
def vMovvsOut (v : VIn) : VOut :=
  let code := v.scalar.toNat % 2 ^ (4 * halves v.fmt)
  let l := (List.range v.n).map fun i => if i = v.elem then some code else .none
  { VOut.none with vd := some (packMasked v.fmt l), st := { Status.none with nan := isCanonNan v.fmt code } }
def vRotOut (v : VIn) : VOut := toVd v fun i => passCode v.fmt (v.a ((i + v.elem) % v.n))
def vPermOut (v : VIn) : VOut :=
  toVd v fun i => passCode v.fmt (v.a (leNat (readVs v.x v.c (512 * bits v.w 39 31 + 2 * i) 2) % v.n))
def vIotaOut (v : VIn) : VOut := toVd v fun i => ((i + v.scalarLo.toNat) % 2 ^ 32, .none)
def vCompressOut (v : VIn) : VOut :=
  let src := (List.range v.n).filter v.on
  let r := src.map fun i => passCode v.fmt (v.a i)
  let fill : Option Nat := if v.pz then some 0 else .none
  let l := r.map (fun q => some q.1) ++ List.replicate (v.n - r.length) fill
  { VOut.none with
    vd := some (packMasked v.fmt l), sc := [(v.ss, BitVec.ofNat 64 r.length, BitVec.allOnes 64)]
    st := { statusOf r with empty := r.isEmpty } }

/-! ### The form of a vector op -/

/-- V, S and P registers that an op reads at issue (R141). -/
def readsVa (op : Nat) : Bool := !([0x25, 0x26, 0x27, 0x28, 0x2A, 0x2B, 0x62, 0x71, 0x73, 0x76].contains op)
def readsVb (op : Nat) : Bool :=
  [0x01, 0x02, 0x03, 0x04, 0x05, 0x06, 0x0B, 0x16, 0x17, 0x18, 0x19, 0x1A, 0x1B, 0x20, 0x21, 0x22, 0x23, 0x24, 0x75].contains op
def readsS (op : Nat) (acc : Bool) : Bool :=
  [0x09, 0x0A, 0x31, 0x2A, 0x61, 0x62, 0x63, 0x71, 0x73, 0x76].contains op ||
  (acc && (decide (0x40 ≤ op ∧ op ≤ 0x53) || op == 0x32))

def vectorHazards (x : Core) (w : Nat) : List Nat :=
  let op := opOf w
  let imm := bits w 91 76
  (if readsVa op then hazV x (512 * bits w 30 22) 512 else []) ++
  (if readsVb op then hazV x (512 * bits w 39 31) 512 else []) ++
  (if op = 0x04 then hazV x (512 * bits w 48 40) 512 else []) ++
  (if readsS op (bit imm 8) then hazS x (bits w 60 55) else []) ++
  (if op = 0x62 then hazS x (bits w 60 55 + 1) else []) ++
  (if op = 0x24 then hazP x (bits imm 3 0) else []) ++
  (if op = 0x2B ∨ (0x50 ≤ op ∧ op ≤ 0x53 ∧ bit imm 9 = true) then hazP x (bits w 75 72) else []) ++
  (if op = 0x25 ∨ op = 0x26 ∨ op = 0x27 ∨ op = 0x28 then hazP x (bits w 25 22) else []) ++
  (if op = 0x25 ∨ op = 0x26 ∨ op = 0x27 then hazP x (bits w 34 31) else [])

/-- Sends the results of a vector op on their way and counts it (R139, R141, R160). -/
def vectorFinish (c ve lat : Nat) (s : State) (w : Nat) (o : VOut) : State :=
  let s := match o.vd with
    | some l => launch s c lat 1 (.vreg (512 * bits w 21 13 + o.off) l)
    | none => s
  let s := match o.pd with
    | some (p, m) => launch s c lat 1 (.preg (bits w 16 13) p m)
    | none => s
  let s := forEach o.sc (fun s r => launch s c lat 1 (.sreg (r.1 % 64) r.2.1 r.2.2)) s
  let s := if bit w 62 then launch s c lat 0 (.vreg (512 * bits w 71 63 + bits w 91 86) [(o.st.byte, 0xFF)]) else s
  let s := raiseOvf s o.st.ovf
  s.modCore c fun x =>
    { x with
      veIssue0 := if ve = 0 then satInc 0xFFFFFFFF x.veIssue0 else x.veIssue0
      veIssue1 := if ve = 0 then x.veIssue1 else satInc 0xFFFFFFFF x.veIssue1
      veNan := if o.st.nan || o.rawNan then satInc 0xFFFFFFFF x.veNan else x.veNan }

/-- A vector op: opcode, latency, whether PRED gates the slot in place of masking elements, and its results. -/
def vectorOp (c ve op lat : Nat) (gated : Bool) (f : VIn → VOut) (s : State) : State :=
  slotOp c (4 + ve) op (!gated) (fun s w b =>
    let s := spoil s c (vectorHazards (s.core c) w)
    let v : VIn := { x := s.core c, c := c, w := w, mask := if ve = 0 then b.mask0 else b.mask1 }
    vectorFinish c ve lat s w (f v)) s

/-! ### The rows -/

/-- ADD (R144). -/
def execVAdd (c ve : Nat) (s : State) : Out :=
  guarded (.vAdd c ve) s (vectorOp c ve 0x01 4 false vAddOut)
/-- SUB (R144). -/
def execVSub (c ve : Nat) (s : State) : Out :=
  guarded (.vSub c ve) s (vectorOp c ve 0x02 4 false vSubOut)
/-- MUL (R144). -/
def execVMul (c ve : Nat) (s : State) : Out :=
  guarded (.vMul c ve) s (vectorOp c ve 0x03 4 false vMulOut)
/-- FMA (R144). -/
def execVFma (c ve : Nat) (s : State) : Out :=
  guarded (.vFma c ve) s (vectorOp c ve 0x04 5 false vFmaOut)
/-- MIN (R144). -/
def execVMin (c ve : Nat) (s : State) : Out :=
  guarded (.vMin c ve) s (vectorOp c ve 0x05 4 false vMinOut)
/-- MAX (R144). -/
def execVMax (c ve : Nat) (s : State) : Out :=
  guarded (.vMax c ve) s (vectorOp c ve 0x06 4 false vMaxOut)
/-- ABS (R144). -/
def execVAbs (c ve : Nat) (s : State) : Out :=
  guarded (.vAbs c ve) s (vectorOp c ve 0x07 4 false vAbsOut)
/-- NEG (R144). -/
def execVNeg (c ve : Nat) (s : State) : Out :=
  guarded (.vNeg c ve) s (vectorOp c ve 0x08 4 false vNegOut)
/-- ADDS (R144). -/
def execVAdds (c ve : Nat) (s : State) : Out :=
  guarded (.vAdds c ve) s (vectorOp c ve 0x09 4 false vAddsOut)
/-- MULS (R144). -/
def execVMuls (c ve : Nat) (s : State) : Out :=
  guarded (.vMuls c ve) s (vectorOp c ve 0x0A 4 false vMulsOut)
/-- DIV (R144). -/
def execVDiv (c ve : Nat) (s : State) : Out :=
  guarded (.vDiv c ve) s (vectorOp c ve 0x0B 12 false vDivOut)
/-- SQRT (R144). -/
def execVSqrt (c ve : Nat) (s : State) : Out :=
  guarded (.vSqrt c ve) s (vectorOp c ve 0x0C 12 false vSqrtOut)
/-- RCP (R144). -/
def execVRcp (c ve : Nat) (s : State) : Out :=
  guarded (.vRcp c ve) s (vectorOp c ve 0x0D 12 false vRcpOut)
/-- RSQRT (R144). -/
def execVRsqrt (c ve : Nat) (s : State) : Out :=
  guarded (.vRsqrt c ve) s (vectorOp c ve 0x0E 12 false vRsqrtOut)
/-- EXP (R144). -/
def execVExp (c ve : Nat) (s : State) : Out :=
  guarded (.vExp c ve) s (vectorOp c ve 0x0F 14 false (vFunOut 0x0F 2 expNum))
/-- LOG (R144). -/
def execVLog (c ve : Nat) (s : State) : Out :=
  guarded (.vLog c ve) s (vectorOp c ve 0x10 14 false (vFunOut 0x10 2 lnNum))
/-- TANH (R144). -/
def execVTanh (c ve : Nat) (s : State) : Out :=
  guarded (.vTanh c ve) s (vectorOp c ve 0x11 14 false (vFunOut 0x11 2 tanhNum))
/-- SIGMOID (R144). -/
def execVSigmoid (c ve : Nat) (s : State) : Out :=
  guarded (.vSigmoid c ve) s (vectorOp c ve 0x12 14 false (vFunOut 0x12 2 sigmoidNum))
/-- GELU (R144). -/
def execVGelu (c ve : Nat) (s : State) : Out :=
  guarded (.vGelu c ve) s (vectorOp c ve 0x13 14 false (vFunOut 0x13 2 geluNum))
/-- SILU (R144). -/
def execVSilu (c ve : Nat) (s : State) : Out :=
  guarded (.vSilu c ve) s (vectorOp c ve 0x14 14 false (vFunOut 0x14 2 siluNum))
/-- RELU (R144). -/
def execVRelu (c ve : Nat) (s : State) : Out :=
  guarded (.vRelu c ve) s (vectorOp c ve 0x15 4 false vReluOut)
/-- AND (R144). -/
def execVAnd (c ve : Nat) (s : State) : Out :=
  guarded (.vAnd c ve) s (vectorOp c ve 0x16 4 false vAndOut)
/-- OR (R144). -/
def execVOr (c ve : Nat) (s : State) : Out :=
  guarded (.vOr c ve) s (vectorOp c ve 0x17 4 false vOrOut)
/-- XOR (R144). -/
def execVXor (c ve : Nat) (s : State) : Out :=
  guarded (.vXor c ve) s (vectorOp c ve 0x18 4 false vXorOut)
/-- SHL (R144). -/
def execVShl (c ve : Nat) (s : State) : Out :=
  guarded (.vShl c ve) s (vectorOp c ve 0x19 4 false vShlOut)
/-- SHR (R144). -/
def execVShr (c ve : Nat) (s : State) : Out :=
  guarded (.vShr c ve) s (vectorOp c ve 0x1A 4 false vShrOut)
/-- SRA (R144). -/
def execVSra (c ve : Nat) (s : State) : Out :=
  guarded (.vSra c ve) s (vectorOp c ve 0x1B 4 false vSraOut)
/-- POPC (R144). -/
def execVPopc (c ve : Nat) (s : State) : Out :=
  guarded (.vPopc c ve) s (vectorOp c ve 0x1C 4 false vPopcOut)
/-- CMPLT (R146). -/
def execVCmplt (c ve : Nat) (s : State) : Out :=
  guarded (.vCmplt c ve) s (vectorOp c ve 0x20 3 false (vCmpOut 0))
/-- CMPLE (R146). -/
def execVCmple (c ve : Nat) (s : State) : Out :=
  guarded (.vCmple c ve) s (vectorOp c ve 0x21 3 false (vCmpOut 1))
/-- CMPEQ (R146). -/
def execVCmpeq (c ve : Nat) (s : State) : Out :=
  guarded (.vCmpeq c ve) s (vectorOp c ve 0x22 3 false (vCmpOut 2))
/-- CMPNE (R146). -/
def execVCmpne (c ve : Nat) (s : State) : Out :=
  guarded (.vCmpne c ve) s (vectorOp c ve 0x23 3 false (vCmpOut 3))
/-- SEL (R146). -/
def execVSel (c ve : Nat) (s : State) : Out :=
  guarded (.vSel c ve) s (vectorOp c ve 0x24 4 false vSelOut)
/-- PAND (R146). -/
def execVPand (c ve : Nat) (s : State) : Out :=
  guarded (.vPand c ve) s (vectorOp c ve 0x25 3 false vPandOut)
/-- POR (R146). -/
def execVPor (c ve : Nat) (s : State) : Out :=
  guarded (.vPor c ve) s (vectorOp c ve 0x26 3 false vPorOut)
/-- PXOR (R146). -/
def execVPxor (c ve : Nat) (s : State) : Out :=
  guarded (.vPxor c ve) s (vectorOp c ve 0x27 3 false vPxorOut)
/-- PNOT (R146). -/
def execVPnot (c ve : Nat) (s : State) : Out :=
  guarded (.vPnot c ve) s (vectorOp c ve 0x28 3 false vPnotOut)
/-- ISNAN (R146). -/
def execVIsnan (c ve : Nat) (s : State) : Out :=
  guarded (.vIsnan c ve) s (vectorOp c ve 0x29 3 false vIsnanOut)
/-- PFIRST (R146). -/
def execVPfirst (c ve : Nat) (s : State) : Out :=
  guarded (.vPfirst c ve) s (vectorOp c ve 0x2A 3 false vPfirstOut)
/-- PTAIL (R146). -/
def execVPtail (c ve : Nat) (s : State) : Out :=
  guarded (.vPtail c ve) s (vectorOp c ve 0x2B 3 false vPtailOut)
/-- CVT (R147). -/
def execVCvt (c ve : Nat) (s : State) : Out :=
  guarded (.vCvt c ve) s (vectorOp c ve 0x30 5 false vCvtOut)
/-- QCVT (R147). -/
def execVQcvt (c ve : Nat) (s : State) : Out :=
  guarded (.vQcvt c ve) s (vectorOp c ve 0x31 8 false vQcvtOut)
/-- AMAX (R147). -/
def execVAmax (c ve : Nat) (s : State) : Out :=
  guarded (.vAmax c ve) s (vectorOp c ve 0x32 8 false vAmaxOut)
/-- RSUM (R152). -/
def execVRsum (c ve : Nat) (s : State) : Out :=
  guarded (.vRsum c ve) s (vectorOp c ve 0x40 12 false vRsumOut)
/-- RSUMSQ (R152). -/
def execVRsumsq (c ve : Nat) (s : State) : Out :=
  guarded (.vRsumsq c ve) s (vectorOp c ve 0x41 12 false vRsumsqOut)
/-- RPROD (R152). -/
def execVRprod (c ve : Nat) (s : State) : Out :=
  guarded (.vRprod c ve) s (vectorOp c ve 0x42 12 false vRprodOut)
/-- RMAX (R152). -/
def execVRmax (c ve : Nat) (s : State) : Out :=
  guarded (.vRmax c ve) s (vectorOp c ve 0x43 12 false vRmaxOut)
/-- RMIN (R152). -/
def execVRmin (c ve : Nat) (s : State) : Out :=
  guarded (.vRmin c ve) s (vectorOp c ve 0x44 12 false vRminOut)
/-- RARGMAX (R154). -/
def execVRargmax (c ve : Nat) (s : State) : Out :=
  guarded (.vRargmax c ve) s (vectorOp c ve 0x45 12 false (vRargOut true))
/-- RARGMIN (R154). -/
def execVRargmin (c ve : Nat) (s : State) : Out :=
  guarded (.vRargmin c ve) s (vectorOp c ve 0x46 12 false (vRargOut false))
/-- SCANSUM (R156). -/
def execVScansum (c ve : Nat) (s : State) : Out :=
  guarded (.vScansum c ve) s (vectorOp c ve 0x50 14 false vScansumOut)
/-- SCANSUMX (R156). -/
def execVScansumx (c ve : Nat) (s : State) : Out :=
  guarded (.vScansumx c ve) s (vectorOp c ve 0x51 14 false vScansumxOut)
/-- SCANMAX (R156). -/
def execVScanmax (c ve : Nat) (s : State) : Out :=
  guarded (.vScanmax c ve) s (vectorOp c ve 0x52 14 false vScanmaxOut)
/-- SCANMIN (R156). -/
def execVScanmin (c ve : Nat) (s : State) : Out :=
  guarded (.vScanmin c ve) s (vectorOp c ve 0x53 14 false vScanminOut)
/-- SOFTMAX (R157). -/
def execVSoftmax (c ve : Nat) (s : State) : Out :=
  guarded (.vSoftmax c ve) s (vectorOp c ve 0x60 40 false vSoftmaxOut)
/-- OSSTEP (R158). -/
def execVOsstep (c ve : Nat) (s : State) : Out :=
  guarded (.vOsstep c ve) s (vectorOp c ve 0x61 30 false vOsstepOut)
/-- OSMERGE (R158). -/
def execVOsmerge (c ve : Nat) (s : State) : Out :=
  guarded (.vOsmerge c ve) s (vectorOp c ve 0x62 20 true vOsmergeOut)
/-- OSNORM (R158). -/
def execVOsnorm (c ve : Nat) (s : State) : Out :=
  guarded (.vOsnorm c ve) s (vectorOp c ve 0x63 14 false vOsnormOut)
/-- MOV (R150). -/
def execVMov (c ve : Nat) (s : State) : Out :=
  guarded (.vMov c ve) s (vectorOp c ve 0x70 4 false vMovOut)
/-- BCAST (R150). -/
def execVBcast (c ve : Nat) (s : State) : Out :=
  guarded (.vBcast c ve) s (vectorOp c ve 0x71 4 false vBcastOut)
/-- MOVSV (R150). -/
def execVMovsv (c ve : Nat) (s : State) : Out :=
  guarded (.vMovsv c ve) s (vectorOp c ve 0x72 4 false vMovsvOut)
/-- MOVVS (R150). -/
def execVMovvs (c ve : Nat) (s : State) : Out :=
  guarded (.vMovvs c ve) s (vectorOp c ve 0x73 4 false vMovvsOut)
/-- ROT (R150). -/
def execVRot (c ve : Nat) (s : State) : Out :=
  guarded (.vRot c ve) s (vectorOp c ve 0x74 4 false vRotOut)
/-- PERM (R150). -/
def execVPerm (c ve : Nat) (s : State) : Out :=
  guarded (.vPerm c ve) s (vectorOp c ve 0x75 4 false vPermOut)
/-- IOTA (R150). -/
def execVIota (c ve : Nat) (s : State) : Out :=
  guarded (.vIota c ve) s (vectorOp c ve 0x76 4 false vIotaOut)
/-- COMPRESS (R150). -/
def execVCompress (c ve : Nat) (s : State) : Out :=
  guarded (.vCompress c ve) s (vectorOp c ve 0x77 8 false vCompressOut)

end Sys2Proof.Machine
end

