-- ==== Sys2Proof/Machine/Dispatch.lean ====
section
/-!
DEFINITION. The meaning of each command: one arm per row of spec/opcode_table.json.
-/
namespace Sys2Proof.Machine

/-- The effect of a command on everything but the queue. -/
def exec (i : Instr) (s : State) : Host.Outcome State Fault Refusal :=
  match i with
  | .quiesce e p => Sys2Proof.Machine.execQuiesce e p s
  | .resume e p => Sys2Proof.Machine.execResume e p s
  | .fenceLinks e p => Sys2Proof.Machine.execFenceLinks e p s
  | .parkingEnd => Sys2Proof.Machine.execParkingEnd s
  | .sessOpen e p => Sys2Proof.Machine.execSessOpen e p s
  | .sessConfirm e p => Sys2Proof.Machine.execSessConfirm e p s
  | .sessClose e p => Sys2Proof.Machine.execSessClose e p s
  | .sessPing e p => Sys2Proof.Machine.execSessPing e p s
  | .eventMask e p => Sys2Proof.Machine.execEventMask e p s
  | .eventRead e p => Sys2Proof.Machine.execEventRead e p s
  | .regRead e p => Sys2Proof.Machine.execRegRead e p s
  | .regWrite e p => Sys2Proof.Machine.execRegWrite e p s
  | .planWrite e p => Sys2Proof.Machine.execPlanWrite e p s
  | .planRead e p => Sys2Proof.Machine.execPlanRead e p s
  | .planCommit e p => Sys2Proof.Machine.execPlanCommit e p s
  | .planRelease e p => Sys2Proof.Machine.execPlanRelease e p s
  | .stepStart e p => Sys2Proof.Machine.execStepStart e p s
  | .stepStop e p => Sys2Proof.Machine.execStepStop e p s
  | .stepStatus e p => Sys2Proof.Machine.execStepStatus e p s
  | .evalRead e p => Sys2Proof.Machine.execEvalRead e p s
  | .evalStatus e p => Sys2Proof.Machine.execEvalStatus e p s
  | .fnReset e p => Sys2Proof.Machine.execFnReset e p s
  | .fulOpen e p => Sys2Proof.Machine.execFulOpen e p s
  | .fulClose e p => Sys2Proof.Machine.execFulClose e p s
  | .fulStatus e p => Sys2Proof.Machine.execFulStatus e p s
  | .fwWrite e p => Sys2Proof.Machine.execFwWrite e p s
  | .fwRead e p => Sys2Proof.Machine.execFwRead e p s
  | .fwErase e p => Sys2Proof.Machine.execFwErase e p s
  | .fwStage e p => Sys2Proof.Machine.execFwStage e p s
  | .fwUnstage e p => Sys2Proof.Machine.execFwUnstage e p s
  | .fwStatus e p => Sys2Proof.Machine.execFwStatus e p s
  | .fwManifest e p => Sys2Proof.Machine.execFwManifest e p s
  | .idCert e p => Sys2Proof.Machine.execIdCert e p s
  | .idKem e p => Sys2Proof.Machine.execIdKem e p s
  | .rootProvision e p => Sys2Proof.Machine.execRootProvision e p s
  | .attestQuote e p => Sys2Proof.Machine.execAttestQuote e p s
  | .sprReport e p => Sys2Proof.Machine.execSprReport e p s
  | .buddySet e p => Sys2Proof.Machine.execBuddySet e p s
  | .refillSource e p => Sys2Proof.Machine.execRefillSource e p s
  | .refillTarget e p => Sys2Proof.Machine.execRefillTarget e p s
  | .repairDone e p => Sys2Proof.Machine.execRepairDone e p s
  | .lnkRetrain e p => Sys2Proof.Machine.execLnkRetrain e p s
  | .lnkUnfence e p => Sys2Proof.Machine.execLnkUnfence e p s
  | .lnkIdent e p => Sys2Proof.Machine.execLnkIdent e p s
  | .ingStatus e p => Sys2Proof.Machine.execIngStatus e p s
  | .ingSeek e p => Sys2Proof.Machine.execIngSeek e p s
  | .ingEndpoint e p => Sys2Proof.Machine.execIngEndpoint e p s
  | .strangerFrame f => Sys2Proof.Machine.execStrangerFrame f s
  | .arpRequest port senderMac senderIp targetIp => Sys2Proof.Machine.execArpRequest port senderMac senderIp targetIp s
  | .neighbourSolicitation port srcMac srcIp targetIp => Sys2Proof.Machine.execNeighbourSolicitation port srcMac srcIp targetIp s
  | .pfcFrame port enable quanta => Sys2Proof.Machine.execPfcFrame port enable quanta s
  | .sessionOpeningTimeout ctx => Sys2Proof.Machine.execSessionOpeningTimeout ctx s
  | .sessionIdleTimeout ctx => Sys2Proof.Machine.execSessionIdleTimeout ctx s
  | .waitToken c => Sys2Proof.Machine.execWaitToken c s
  | .slotNop c slot => Sys2Proof.Machine.execSlotNop c slot s
  | .mWload c a => Sys2Proof.Machine.execMWload c a s
  | .mMac c a => Sys2Proof.Machine.execMMac c a s
  | .mL1 c a => Sys2Proof.Machine.execML1 c a s
  | .mSqd c a => Sys2Proof.Machine.execMSqd c a s
  | .mMinplus c a => Sys2Proof.Machine.execMMinplus c a s
  | .mMaxplus c a => Sys2Proof.Machine.execMMaxplus c a s
  | .mHam c a => Sys2Proof.Machine.execMHam c a s
  | .mCmpc c a => Sys2Proof.Machine.execMCmpc c a s
  | .mDrain c a => Sys2Proof.Machine.execMDrain c a s
  | .mInit c a => Sys2Proof.Machine.execMInit c a s
  | .vAdd c ve => Sys2Proof.Machine.execVAdd c ve s
  | .vSub c ve => Sys2Proof.Machine.execVSub c ve s
  | .vMul c ve => Sys2Proof.Machine.execVMul c ve s
  | .vFma c ve => Sys2Proof.Machine.execVFma c ve s
  | .vMin c ve => Sys2Proof.Machine.execVMin c ve s
  | .vMax c ve => Sys2Proof.Machine.execVMax c ve s
  | .vAbs c ve => Sys2Proof.Machine.execVAbs c ve s
  | .vNeg c ve => Sys2Proof.Machine.execVNeg c ve s
  | .vAdds c ve => Sys2Proof.Machine.execVAdds c ve s
  | .vMuls c ve => Sys2Proof.Machine.execVMuls c ve s
  | .vDiv c ve => Sys2Proof.Machine.execVDiv c ve s
  | .vSqrt c ve => Sys2Proof.Machine.execVSqrt c ve s
  | .vRcp c ve => Sys2Proof.Machine.execVRcp c ve s
  | .vRsqrt c ve => Sys2Proof.Machine.execVRsqrt c ve s
  | .vExp c ve => Sys2Proof.Machine.execVExp c ve s
  | .vLog c ve => Sys2Proof.Machine.execVLog c ve s
  | .vTanh c ve => Sys2Proof.Machine.execVTanh c ve s
  | .vSigmoid c ve => Sys2Proof.Machine.execVSigmoid c ve s
  | .vGelu c ve => Sys2Proof.Machine.execVGelu c ve s
  | .vSilu c ve => Sys2Proof.Machine.execVSilu c ve s
  | .vRelu c ve => Sys2Proof.Machine.execVRelu c ve s
  | .vAnd c ve => Sys2Proof.Machine.execVAnd c ve s
  | .vOr c ve => Sys2Proof.Machine.execVOr c ve s
  | .vXor c ve => Sys2Proof.Machine.execVXor c ve s
  | .vShl c ve => Sys2Proof.Machine.execVShl c ve s
  | .vShr c ve => Sys2Proof.Machine.execVShr c ve s
  | .vSra c ve => Sys2Proof.Machine.execVSra c ve s
  | .vPopc c ve => Sys2Proof.Machine.execVPopc c ve s
  | .vCmplt c ve => Sys2Proof.Machine.execVCmplt c ve s
  | .vCmple c ve => Sys2Proof.Machine.execVCmple c ve s
  | .vCmpeq c ve => Sys2Proof.Machine.execVCmpeq c ve s
  | .vCmpne c ve => Sys2Proof.Machine.execVCmpne c ve s
  | .vSel c ve => Sys2Proof.Machine.execVSel c ve s
  | .vPand c ve => Sys2Proof.Machine.execVPand c ve s
  | .vPor c ve => Sys2Proof.Machine.execVPor c ve s
  | .vPxor c ve => Sys2Proof.Machine.execVPxor c ve s
  | .vPnot c ve => Sys2Proof.Machine.execVPnot c ve s
  | .vIsnan c ve => Sys2Proof.Machine.execVIsnan c ve s
  | .vPfirst c ve => Sys2Proof.Machine.execVPfirst c ve s
  | .vPtail c ve => Sys2Proof.Machine.execVPtail c ve s
  | .vCvt c ve => Sys2Proof.Machine.execVCvt c ve s
  | .vQcvt c ve => Sys2Proof.Machine.execVQcvt c ve s
  | .vAmax c ve => Sys2Proof.Machine.execVAmax c ve s
  | .vRsum c ve => Sys2Proof.Machine.execVRsum c ve s
  | .vRsumsq c ve => Sys2Proof.Machine.execVRsumsq c ve s
  | .vRprod c ve => Sys2Proof.Machine.execVRprod c ve s
  | .vRmax c ve => Sys2Proof.Machine.execVRmax c ve s
  | .vRmin c ve => Sys2Proof.Machine.execVRmin c ve s
  | .vRargmax c ve => Sys2Proof.Machine.execVRargmax c ve s
  | .vRargmin c ve => Sys2Proof.Machine.execVRargmin c ve s
  | .vScansum c ve => Sys2Proof.Machine.execVScansum c ve s
  | .vScansumx c ve => Sys2Proof.Machine.execVScansumx c ve s
  | .vScanmax c ve => Sys2Proof.Machine.execVScanmax c ve s
  | .vScanmin c ve => Sys2Proof.Machine.execVScanmin c ve s
  | .vSoftmax c ve => Sys2Proof.Machine.execVSoftmax c ve s
  | .vOsstep c ve => Sys2Proof.Machine.execVOsstep c ve s
  | .vOsmerge c ve => Sys2Proof.Machine.execVOsmerge c ve s
  | .vOsnorm c ve => Sys2Proof.Machine.execVOsnorm c ve s
  | .vMov c ve => Sys2Proof.Machine.execVMov c ve s
  | .vBcast c ve => Sys2Proof.Machine.execVBcast c ve s
  | .vMovsv c ve => Sys2Proof.Machine.execVMovsv c ve s
  | .vMovvs c ve => Sys2Proof.Machine.execVMovvs c ve s
  | .vRot c ve => Sys2Proof.Machine.execVRot c ve s
  | .vPerm c ve => Sys2Proof.Machine.execVPerm c ve s
  | .vIota c ve => Sys2Proof.Machine.execVIota c ve s
  | .vCompress c ve => Sys2Proof.Machine.execVCompress c ve s
  | .ldLdv c => Sys2Proof.Machine.execLdLdv c s
  | .ldStv c => Sys2Proof.Machine.execLdStv c s
  | .ldLds c => Sys2Proof.Machine.execLdLds c s
  | .ldSts c => Sys2Proof.Machine.execLdSts c s
  | .ldLdp c => Sys2Proof.Machine.execLdLdp c s
  | .ldStp c => Sys2Proof.Machine.execLdStp c s
  | .ldFeed c => Sys2Proof.Machine.execLdFeed c s
  | .ldFeedv c => Sys2Proof.Machine.execLdFeedv c s
  | .ctlEnd c => Sys2Proof.Machine.execCtlEnd c s
  | .ctlLoop c => Sys2Proof.Machine.execCtlLoop c s
  | .ctlBr c => Sys2Proof.Machine.execCtlBr c s
  | .ctlSli c => Sys2Proof.Machine.execCtlSli c s
  | .ctlSlih c => Sys2Proof.Machine.execCtlSlih c s
  | .ctlSadd c => Sys2Proof.Machine.execCtlSadd c s
  | .ctlSsub c => Sys2Proof.Machine.execCtlSsub c s
  | .ctlSand c => Sys2Proof.Machine.execCtlSand c s
  | .ctlSor c => Sys2Proof.Machine.execCtlSor c s
  | .ctlSxor c => Sys2Proof.Machine.execCtlSxor c s
  | .ctlSshl c => Sys2Proof.Machine.execCtlSshl c s
  | .ctlSshr c => Sys2Proof.Machine.execCtlSshr c s
  | .ctlSsra c => Sys2Proof.Machine.execCtlSsra c s
  | .ctlSmul c => Sys2Proof.Machine.execCtlSmul c s
  | .ctlSaddi c => Sys2Proof.Machine.execCtlSaddi c s
  | .ctlCmpeq c => Sys2Proof.Machine.execCtlCmpeq c s
  | .ctlCmplt c => Sys2Proof.Machine.execCtlCmplt c s
  | .ctlCmpltu c => Sys2Proof.Machine.execCtlCmpltu c s
  | .ctlXset c => Sys2Proof.Machine.execCtlXset c s
  | .ctlXaddi c => Sys2Proof.Machine.execCtlXaddi c s
  | .ctlXget c => Sys2Proof.Machine.execCtlXget c s
  | .ctlSettile c => Sys2Proof.Machine.execCtlSettile c s
  | .ctlSetkq c => Sys2Proof.Machine.execCtlSetkq c s
  | .ctlSignal c => Sys2Proof.Machine.execCtlSignal c s
  | .ctlTokrd c => Sys2Proof.Machine.execCtlTokrd c s
  | .ctlTokset c => Sys2Proof.Machine.execCtlTokset c s
  | .ctlKick c => Sys2Proof.Machine.execCtlKick c s
  | .ctlFence c => Sys2Proof.Machine.execCtlFence c s
  | .ctlTick c => Sys2Proof.Machine.execCtlTick c s
  | .tokenArrival c tok => Sys2Proof.Machine.execTokenArrival c tok s
  | .waitTimeout c => Sys2Proof.Machine.execWaitTimeout c s
  | .chainRecord g record => Sys2Proof.Machine.execChainRecord g record s
  | .engineTokenArrival g eng tok => Sys2Proof.Machine.execEngineTokenArrival g eng tok s
  | .engineWaitTimeout g eng => Sys2Proof.Machine.execEngineWaitTimeout g eng s
  | .dmaCopy g eng => Sys2Proof.Machine.execDmaCopy g eng s
  | .dmaSkew g eng => Sys2Proof.Machine.execDmaSkew g eng s
  | .dmaFill g eng => Sys2Proof.Machine.execDmaFill g eng s
  | .engGather g => Sys2Proof.Machine.execEngGather g s
  | .engScatter g => Sys2Proof.Machine.execEngScatter g s
  | .engScatterAdd g => Sys2Proof.Machine.execEngScatterAdd g s
  | .engTranspose g => Sys2Proof.Machine.execEngTranspose g s
  | .engLookup g => Sys2Proof.Machine.execEngLookup g s
  | .engSort g => Sys2Proof.Machine.execEngSort g s
  | .engTopk g => Sys2Proof.Machine.execEngTopk g s
  | .engSetslot g => Sys2Proof.Machine.execEngSetslot g s
  | .engGen g => Sys2Proof.Machine.execEngGen g s
  | .engEncode g => Sys2Proof.Machine.execEngEncode g s
  | .engDecode g => Sys2Proof.Machine.execEngDecode g s
  | .engSend g => Sys2Proof.Machine.execEngSend g s
  | .engRecvSum g => Sys2Proof.Machine.execEngRecvSum g s
  | .engRecvMax g => Sys2Proof.Machine.execEngRecvMax g s
  | .engRecvMin g => Sys2Proof.Machine.execEngRecvMin g s
  | .engRecvCopy g => Sys2Proof.Machine.execEngRecvCopy g s
  | .engMapSend g => Sys2Proof.Machine.execEngMapSend g s
  | .engMapRecv g => Sys2Proof.Machine.execEngMapRecv g s
  | .phaseStart => Sys2Proof.Machine.execPhaseStart s
  | .updateDone stack => Sys2Proof.Machine.execUpdateDone stack s
  | .digestTransfer step shard pos flag digest => Sys2Proof.Machine.execDigestTransfer step shard pos flag digest s
  | .shardCopy stack shard image => Sys2Proof.Machine.execShardCopy stack shard image s
  | .reflectOffer o => Sys2Proof.Machine.execReflectOffer o s
  | .reflectionData d => Sys2Proof.Machine.execReflectionData d s
  | .reflectAck a => Sys2Proof.Machine.execReflectAck a s
  | .fetchRequest port stack tensor first count => Sys2Proof.Machine.execFetchRequest port stack tensor first count s
  | .fetchData stack tensor first image => Sys2Proof.Machine.execFetchData stack tensor first image s
  | .stepRerun => Sys2Proof.Machine.execStepRerun s
  | .parityMismatch m => Sys2Proof.Machine.execParityMismatch m s
  | .scrubRead stack dense failures => Sys2Proof.Machine.execScrubRead stack dense failures s
  | .dieCopyEnd stack dense => Sys2Proof.Machine.execDieCopyEnd stack dense s
  | .shadowTestDone g pass => Sys2Proof.Machine.execShadowTestDone g pass s
  | .mgmtWatchdogExpiry => Sys2Proof.Machine.execMgmtWatchdogExpiry s
  | .fuelleWatchdogExpiry => Sys2Proof.Machine.execFuelleWatchdogExpiry s
  | .fnResetEnd fn => Sys2Proof.Machine.execFnResetEnd fn s
  | .pstWriteDone ok0 ok1 => Sys2Proof.Machine.execPstWriteDone ok0 ok1 s
  | .resetRelease bpos meshOpen => Sys2Proof.Machine.execResetRelease bpos meshOpen s
  | .bootComplete => Sys2Proof.Machine.execBootComplete s
  | .testStepDone failed => Sys2Proof.Machine.execTestStepDone failed s
  | .confirmWindowExpiry => Sys2Proof.Machine.execConfirmWindowExpiry s
  | .porN auxLow torn => Sys2Proof.Machine.execPorN auxLow torn s
  | .sysrstN => Sys2Proof.Machine.execSysrstN s
  | .railReset rail => Sys2Proof.Machine.execRailReset rail s
  | .dipEntry low => Sys2Proof.Machine.execDipEntry low s
  | .dipRecovery => Sys2Proof.Machine.execDipRecovery s
  | .dipTimeout rail => Sys2Proof.Machine.execDipTimeout rail s
  | .refclkLoss absent => Sys2Proof.Machine.execRefclkLoss absent s
  | .refclkAbsentTimeout => Sys2Proof.Machine.execRefclkAbsentTimeout s
  | .pllLockLoss dom inst => Sys2Proof.Machine.execPllLockLoss dom inst s
  | .pllFail dom inst => Sys2Proof.Machine.execPllFail dom inst s
  | .thermalLevel d temp => Sys2Proof.Machine.execThermalLevel d temp s
  | .minorAlarm code => Sys2Proof.Machine.execMinorAlarm code s
  | .majorAlarm => Sys2Proof.Machine.execMajorAlarm s
  | .keyRegenDone => Sys2Proof.Machine.execKeyRegenDone s
  | .keyDerived iod => Sys2Proof.Machine.execKeyDerived iod s
  | .cipherKat iod core ok => Sys2Proof.Machine.execCipherKat iod core ok s
  | .signalDetect port => Sys2Proof.Machine.execSignalDetect port s
  | .trainingTimeout port => Sys2Proof.Machine.execTrainingTimeout port s
  | .identResend port => Sys2Proof.Machine.execIdentResend port s
  | .ident port msg => Sys2Proof.Machine.execIdent port msg s
  | .linkDown port => Sys2Proof.Machine.execLinkDown port s
  | .linkLost port => Sys2Proof.Machine.execLinkLost port s
  | .flitIdle port f => Sys2Proof.Machine.execFlitIdle port f s
  | .flitData port f => Sys2Proof.Machine.execFlitData port f s
  | .flitMsg port f => Sys2Proof.Machine.execFlitMsg port f s
  | .flitRdreq port f => Sys2Proof.Machine.execFlitRdreq port f s
  | .flitDrain port f => Sys2Proof.Machine.execFlitDrain port f s
  | .flitDrainAck port f => Sys2Proof.Machine.execFlitDrainAck port f s
  | .laneSwap port f => Sys2Proof.Machine.execLaneSwap port f s
  | .fuelleData f => Sys2Proof.Machine.execFuelleData f s
  | .fuelleParity f => Sys2Proof.Machine.execFuelleParity f s
  | .fuelleAck f => Sys2Proof.Machine.execFuelleAck f s
  | .fuelleOffer f => Sys2Proof.Machine.execFuelleOffer f s
  | .fuelleClose f => Sys2Proof.Machine.execFuelleClose f s
  | .fuelleJoin f => Sys2Proof.Machine.execFuelleJoin f s
  | .fuellePacedSend ctx => Sys2Proof.Machine.execFuellePacedSend ctx s
  | .fuelleAckTimer ctx => Sys2Proof.Machine.execFuelleAckTimer ctx s
  | .fuelleOfferTimer ctx => Sys2Proof.Machine.execFuelleOfferTimer ctx s
  | .fuelleRtoExpiry ctx => Sys2Proof.Machine.execFuelleRtoExpiry ctx s
  | .fuelleRekey ctx => Sys2Proof.Machine.execFuelleRekey ctx s
  | .roundQueued => Sys2Proof.Machine.execRoundQueued s
  | .roundReady => Sys2Proof.Machine.execRoundReady s
  | .joinEnd => Sys2Proof.Machine.execJoinEnd s
  | .joinLimitExpiry => Sys2Proof.Machine.execJoinLimitExpiry s
  | .ingestData q => Sys2Proof.Machine.execIngestData q s
  | .ingestError q => Sys2Proof.Machine.execIngestError q s
  | .ingestReadTimeout stream record => Sys2Proof.Machine.execIngestReadTimeout stream record s
  | .glbLossScale e v => Sys2Proof.Machine.execGlbLossScale e v s
  | .glbLsPolicy e v => Sys2Proof.Machine.execGlbLsPolicy e v s
  | .coreWaitLimit e c v => Sys2Proof.Machine.execCoreWaitLimit e c v s
  | .epilogueSetWrite e c set reg v => Sys2Proof.Machine.execEpilogueSetWrite e c set reg v s
  | .updHpWrite e stack set field v => Sys2Proof.Machine.execUpdHpWrite e stack set field v s
  | .glbPlanVariant e v => Sys2Proof.Machine.execGlbPlanVariant e v s
  | .glbEvalCtl e v => Sys2Proof.Machine.execGlbEvalCtl e v s
  | .glbCommitMark e v => Sys2Proof.Machine.execGlbCommitMark e v s
  | .glbMarkInterval e v => Sys2Proof.Machine.execGlbMarkInterval e v s
  | .sprLastingWindow e v => Sys2Proof.Machine.execSprLastingWindow e v s
  | .sprLastingEvents e v => Sys2Proof.Machine.execSprLastingEvents e v s
  | .stkScrubCtl e stack v => Sys2Proof.Machine.execStkScrubCtl e stack v s
  | .lnkMiswirePolicy e v => Sys2Proof.Machine.execLnkMiswirePolicy e v s
  | .lnkDownLimit e v => Sys2Proof.Machine.execLnkDownLimit e v s
  | .fulUdpPort e v => Sys2Proof.Machine.execFulUdpPort e v s
  | .fulRoundBase e v => Sys2Proof.Machine.execFulRoundBase e v s
  | .fulPace e v => Sys2Proof.Machine.execFulPace e v s
  | .fulJoinLimit e v => Sys2Proof.Machine.execFulJoinLimit e v s
  | .isxUdpPort e v => Sys2Proof.Machine.execIsxUdpPort e v s
  | .isxIdleLimit e v => Sys2Proof.Machine.execIsxIdleLimit e v s
  | .ethIpv4 e ep v => Sys2Proof.Machine.execEthIpv4 e ep v s
  | .ethIpv6 e ep w v => Sys2Proof.Machine.execEthIpv6 e ep w v s
  | .ethVlan e ep v => Sys2Proof.Machine.execEthVlan e ep v s
  | .ethNexthopLo e ep v => Sys2Proof.Machine.execEthNexthopLo e ep v s
  | .ethNexthopHi e ep v => Sys2Proof.Machine.execEthNexthopHi e ep v s
  | .ethDscp e ep v => Sys2Proof.Machine.execEthDscp e ep v s
  | .ethPfc e ep v => Sys2Proof.Machine.execEthPfc e ep v s
  | .pstWearAddr e v => Sys2Proof.Machine.execPstWearAddr e v s
  | .planCommitDone => Sys2Proof.Machine.execPlanCommitDone s
  | .fwEraseDone => Sys2Proof.Machine.execFwEraseDone s
  | .refillDone result => Sys2Proof.Machine.execRefillDone result s
  | .unwrapDone => Sys2Proof.Machine.execUnwrapDone s
  | .quoteDone => Sys2Proof.Machine.execQuoteDone s
  | .pllRelock dom inst => Sys2Proof.Machine.execPllRelock dom inst s
  | .refclkReturn => Sys2Proof.Machine.execRefclkReturn s
  | .ethLinkChange ep up => Sys2Proof.Machine.execEthLinkChange ep up s

end Sys2Proof.Machine
end

