-- ==== Sys2Proof/Safety.lean ====
section
/-!
DEFINITION. The terms in which claims are stated: what a safe state is, when a port accepts a host command (R391 to R402), and
what acceptance alone does to the state.
-/
namespace Sys2Proof.Safety

open Sys2Proof.Machine

/-- The memory of the state is in its canonical form. -/
def MemoryCanonical (s : State) : Prop := Memory.wf s = true

/-- The event ring holds no more than its 256 records (R403). -/
def RingBounded (s : State) : Prop := s.isx.ring.length ≤ 256

/-- The session of a command accepts its packet: not FREE, from the host's address, the count in the window, its epoch's key
held and within its limits, and the tag verifies (R374, R381, R391, R394, R396). -/
structure SessionAccepts (e : Env) (p : List Byte) (s : State) : Prop where
  live : (s.session e.context).state ≠ .free
  host : (s.session e.context).hostIp = e.srcIp ∧ (s.session e.context).hostPort = e.srcPort
  window : inWindow (s.session e.context) (nearestCount ((s.session e.context).hi.getD 0) e.seq.toNat) = true
  epoch : (s.session e.context).epochs.contains
    (epochOf (nearestCount ((s.session e.context).hi.getD 0) e.seq.toNat)) = true
  key : requestOk 16 e.length = true ∧ (openKey s e e.length).2 = true
  tag : tagOk s e p (epochOf (nearestCount ((s.session e.context).hi.getD 0) e.seq.toNat)) = true

/-- A command that reaches the device is served: the port passes frames, CIPHER is not in reset, firmware runs on a clocked management
core (an urgent opcode needs neither), the packet has the form of R392, its fields are those of the opcode's row, its state is one that
the row lists, the running image serves the opcode, and its session, or the sessionless context, accepts it (R391 to R402, R459, R485). -/
structure Accepts (c : HostCmd) (e : Env) (p : List Byte) (s : State) : Prop where
  port : e.port < 2
  up : passes s e.port = true
  cipher : s.inReset 6 = false
  form : e.version = 1 ∧ e.context / 0x2000 = e.port ∧ e.udpLen = 32 + e.length ∧ p.length = e.length
  fields : e.opcode = c.opcode ∧ e.flags = 0 ∧ e.resv = 0 ∧ e.status = 0
  params : c.len e.length = true ∧ c.ok p = true
  works : s.glb.state ≠ .cold ∧ s.glb.state ≠ .booting
  state : s.glb.state ∈ c.states
  mgmt : (mgmtDown s = false ∧ mgmtClocked s = true) ∨ c.urgent = true
  image : s.fw.recovery = false ∨ recoveryServes c.opcode = true
  way : if isSessionless e.context = true then
      sessionlessOpcode e.opcode = true ∧ e.tag = 0 ∧ (rateOk s e.port).isSome = true
    else
      SessionAccepts e p s ∧ c.opcode ≠ 0x10 ∧ ((s.session e.context).state = .opening → c.opcode = 0x11) ∧
      (outstanding s e.context < 16 ∨ c.urgent = true)

/-- What acceptance alone does: the frame is counted; the use of a session's key is counted, its window moves to the count, its idle limit
starts anew and keys that it lacks are asked for; a sessionless packet counts towards its port's rate. -/
def served (s : State) (e : Env) : State :=
  let s := countRx s e.port
  if isSessionless e.context = true then (rateOk s e.port).getD s
  else
    let z := s.session e.context
    let s := (openKey s e e.length).1
    refreshIsaex (s.setSession e.context
      { (z.accept (nearestCount (z.hi.getD 0) e.seq.toNat)) with lastTick := s.now }) e.context

/-- The parts of the state that acceptance and the reply leave as they were: everything but the ports' and cipher engines'
counters and queues, the sessions, the sessionless rate and what is sent. -/
def Beside (s t : State) : Prop :=
  t = { s with eth := t.eth, cip := t.cip, sess := t.sess, isx := { s.isx with rate := t.isx.rate }, egress := t.egress }

/-- A REG_WRITE of one word at an offset of register space is accepted. -/
def WordAccepted (off : Nat) (v : W32) (e : Env) (s : State) : Prop :=
  Accepts (regWriteCmd (oneWord off v)) e (oneWord off v) s

/-- The reply of a REG_WRITE of one word that has taken effect at once in `t`. -/
def wordDone (t : State) (e : Env) : State := reply t e 0 (beBytes 2 1)

/-- The persistent store takes a host write of a new value of an index (R12, R444, R447 to R449). -/
structure StoreTakes (ix v : Nat) (s : State) : Prop where
  alive : pstDead s = false
  new : pstValue s ix ≠ v
  fresh : pstLatestSeq s ix < enduranceLimit
  supply : storePowered s = true
  room : s.pst.queue.length < 16

/-- The state in which a host write of one word is on its way to the persistent store, and its reply waits for it. -/
def storing (t : State) (e : Env) (ix v : Nat) (hook : PstHook) : State :=
  replyAfter
    (startWrite { t with pst := { t.pst with
      nextTicket := t.pst.nextTicket + 1
      queue := t.pst.queue ++ [{ index := ix, value := v, own := false, ticket := t.pst.nextTicket, hook := hook }] } })
    e [(t.pst.nextTicket, 0)] 0 (beBytes 2 1)

/-! ### Core ops and cluster engines -/

/-- A slot of a core acts: the bundle in progress, or the one that issues now, is `b` in the state `r`; it enables the slot in this
repeat, the slot has not acted in it, and carries the opcode (R74, R88 to R92). -/
structure SlotActs (s : State) (c slot op : Nat) (r : State) (b : Bun) : Prop where
  core : c < 480
  issued : issue s c = .ready r
  bundle : (r.core c).bun = some b
  turn : slot ∈ slotsOf b ∧ slot ∉ b.slotsDone
  opcode : opOf (slotWord b.raw slot) = op

/-- The slot's predicate is on (R91). -/
def predicated (b : Bun) (slot : Nat) : Prop := b.preds.testBit slot = true

/-- A vector op completes: it reads its operands in the state in which it issues, sends its results on their way with its latency, and
its slot has acted. Where PRED gates the op it must be on; else PRED masks elements (R91, R141, R151). -/
def VectorCompletes (i : Nat → Nat → Instr) (op lat : Nat) (gated : Bool) (out : VIn → VOut) : Prop :=
  ∀ (c ve : Nat) (s r : State) (b : Bun), ve < 2 → SlotActs s c (4 + ve) op r b → (gated = true → predicated b (4 + ve)) →
    let w := slotWord b.raw (4 + ve)
    let u := spoil r c (vectorHazards (r.core c) w)
    exec (i c ve) s = .next (endSlot
      (vectorFinish c ve lat u w (out { x := u.core c, c := c, w := w, mask := if ve = 0 then b.mask0 else b.mask1 })) c (4 + ve))

/-- A matrix op completes in a repeat in which its predicate is on: its effect, and its slot has acted. -/
def MatrixCompletes (i : Nat → Nat → Instr) (op : Nat) (effect : Nat → Nat → State → Nat → Bun → State) : Prop :=
  ∀ (c a : Nat) (s r : State) (b : Bun), a < 4 → SlotActs s c a op r b → predicated b a →
    exec (i c a) s = .next (endSlot (effect c a r (slotWord b.raw a) b) c a)

/-- A load op completes: its result, of a latency and a number of register-file writes, is on its way (R84, R85). INC
acts as the repeat ends. -/
def LoadCompletes (i : Nat → Instr) (op lat weight : Nat) (hz : Core → Nat → Nat → Bun → List Nat)
    (result : State → Core → Nat → Nat → Nat → Bun → Payload) : Prop :=
  ∀ (c : Nat) (s r : State) (b : Bun), SlotActs s c 6 op r b → predicated b 6 →
    let w := slotWord b.raw 6
    let x := r.core c
    let u := spoil r c (hazX x (bits w 16 12) ++ hz x (loadAddr x c w) w b)
    exec (i c) s = .next (endSlot
      (launch u c lat weight (result u (u.core c) c (loadAddr x c w) w b)) c 6)

/-- A control op completes: the S registers that it reads are checked for results still on their way, its effect acts, and its slot
has acted. -/
def ControlCompletes (i : Nat → Instr) (op : Nat) (reads : Nat → List Nat) (effect : Nat → State → Core → Nat → State) : Prop :=
  ∀ (c : Nat) (s r : State) (b : Bun), SlotActs s c 7 op r b → predicated b 7 →
    let w := slotWord b.raw 7
    let u := spoil r c ((reads w).flatMap fun n => hazS (r.core c) n)
    exec (i c) s = .next (endSlot (effect c u (u.core c) w) c 7)

/-- A scalar result of latency `lat` in S(SD). -/
def scalarResult (lat : Nat) (f : Core → Nat → Nat → W64) (c : Nat) (s : State) (x : Core) (w : Nat) : State :=
  launch s c lat 1 (.sreg (bits w 17 12) (f x c w) (BitVec.allOnes 64))

/-- The head descriptor of an engine of a cluster starts: the engine has none in progress, it lies in the cluster memory, its
wait is met, its header is valid and it carries the opcode (R167, R168, R170, R194). -/
structure DescriptorStarts (s : State) (g eng op off d : Nat) : Prop where
  runs : engineRuns s g eng = true
  head : headDesc s g eng = some off
  unbegun : (s.engine g eng).desc = 0
  inside : off + 64 ≤ 0x3000000
  bytes : descAt s g off = d
  wait : waitMet s g eng d = true
  header : headerValid eng d = true
  opcode : dOp d = op

/-- What a descriptor comes to that has passed the checks of its header: the work that `f` settles from the operands begins with its first
segment; or it meets a fault, performs nothing and is recorded; or it asks another board position for an operand and waits for it; or it
waits while a stack serves no access (R170, R171, R194, R309, R480). `begun` is the state in which it is in progress. -/
structure Plans (i : Instr) (g eng off d : Nat) (f : State → Nat → Except Stop (List (List Act))) (s begun : State) : Prop where
  runs : ∀ work, f s d = .ok work → exec i s = .next (runSegment (beginDesc begun g eng d work) g eng off)
  faults : ∀ code, f s d = .error (.fault code) → exec i s = .next (enginePlanFault s g eng off code)
  asks : ∀ q pa n ret, f s d = .error (.ask q pa n ret) → exec i s = .next (askOperand begun g eng d q pa n ret)
  holds : f s d = .error .hold → exec i s = .next s

/-- An op of an engine completes: the head descriptor starts, with its count consumed; a descriptor in progress whose operands have come
goes on with its work, or settles it first where it still waited for an operand; each further command performs one of its segments, and
with the last its notifications are sent and NOP descriptors behind it run (R168 to R171, R194, R309). -/
structure EngineCompletes (i : Instr) (g eng op : Nat) (f : State → Nat → Except Stop (List (List Act))) : Prop where
  starts : ∀ (s : State) (off d : Nat), wellFormed i = true → DescriptorStarts s g eng op off d →
    Plans i g eng off d f s (startDesc s g eng off d)
  resumes : ∀ (s : State) (off : Nat), wellFormed i = true → engineRuns s g eng = true → headDesc s g eng = some off →
    (s.engine g eng).desc ≠ 0 → dOp (s.engine g eng).desc = op → (s.engine g eng).work = none → (s.engine g eng).owed = [] →
    Plans i g eng off (s.engine g eng).desc f s s
  goesOn : ∀ (s : State) (off : Nat), wellFormed i = true → engineRuns s g eng = true → headDesc s g eng = some off →
    (s.engine g eng).desc ≠ 0 → dOp (s.engine g eng).desc = op → (s.engine g eng).work ≠ none ∨ (s.engine g eng).owed ≠ [] →
    exec i s = .next (runSegment s g eng off)

/-! ### Fuelle packets -/

/-- A Fuelle packet reaches its session: the port passes frames outside COLD, EXCHANGE and CIPHER are not in reset, and the header
names a session of its port and its peer (order 1 of R356). -/
structure FulReaches (f : FPkt) (s : State) : Prop where
  port : f.port < 2
  up : passes s f.port = true ∧ s.glb.state ≠ .cold
  engines : s.inReset 4 = false ∧ s.inReset 6 = false
  version : f.version = 1
  context : f.context < 16384 ∧ portOf f.context = f.port ∧ (s.fuelle f.context).state ≠ 0
  peer : (s.fuelle f.context).peerIp = f.srcIp ∧ (s.fuelle f.context).peerPort = f.srcPort

/-- A packet under the session key is accepted: epoch, count, key, its limits, tag and fields (R356, R374). -/
structure FulAccepts (f : FPkt) (s : State) : Prop where
  reaches : FulReaches f s
  epoch : (rxEpochsOf (s.fuelle f.context).rxHi).contains f.epoch.toNat = true
  count : fulSeqOk (s.fuelle f.context) (fulCount f) = true
  settled : (s.fuelle f.context).saltPeer ≠ 0
  key : (s.fuelle f.context).rxEpochs.contains f.epoch.toNat = true
  within : (requestKey s f.port (fuelleName f.context false f.epoch.toNat) 32 f.plain.length).2 = true
  tag : fulTagOk s f.context 3 f.epoch.toNat f = true
  fields : fulFieldsOk f = true

end Sys2Proof.Safety
end

