-- ==== Sys2Proof/Certificates/Slice0/Obligations.lean ====
section
/-!
DEFINITION. The statements about the block, each with the rules of spec/ that it rests on.
-/

open Sys2Proof Sys2Proof.Machine Sys2Proof.Safety

/-- A step takes the command at the front of the queue and runs it on the rest (the queue of waiting commands is the
model's, log 10). -/
def Obligations.StepRunsFrontCommand : Prop :=
  ∀ (c : Instr) (s : State), step { s with pending := c :: s.pending } = exec c s

/-- An empty queue: one tick of the counter of R471. That a step with nothing to run stands for one tick is the
model's choice (log 10). -/
def Obligations.EmptyQueueIdles : Prop :=
  ∀ s : State, s.pending = [] →
    ∃ t, step s = .next t ∧ t.pending = [] ∧
      (s.glb.state ≠ .running → (s.ether 0).c2 = [] → (s.ether 1).c2 = [] →
        t.mem = s.mem ∧ ∀ c, (t.core c).rf = (s.core c).rf) ∧
      t.pwr.tick = (if s.pwr.refPresent = true then (s.pwr.tick + 1) % 2 ^ 64 else s.pwr.tick) ∧
      (s.pwr.refPresent = false → t = s)

/-- Every well-formed command has a next state in every state; a command that names a unit the package does not hold
(R14, R17, R55, R164, R196, R281) is the fault noSuchUnit, and nothing is refused. -/
def Obligations.OnlyIllFormedCommandsStop : Prop :=
  ∀ (i : Instr) (s : State),
    (wellFormed i = true → ∃ t, exec i s = .next t) ∧ (wellFormed i = false → exec i s = .fault .noSuchUnit)

/-- The effect of a command is on everything but the queue of the commands that wait behind it. -/
def Obligations.ExecKeepsQueue : Prop :=
  ∀ (i : Instr) (s t : State), exec i s = .next t → t.pending = s.pending

/-- An invariant of every step: whichever command writes memory (R202), or makes storage unspecified (R461, R483),
equal memories stay equal data. -/
def Obligations.StepKeepsMemoryForm : Prop :=
  ∀ s t : State, MemoryCanonical s → step s = .next t → MemoryCanonical t

/-- The state right after the release of a power-on reset. -/
def Obligations.ResetMemoryCanonical : Prop :=
  MemoryCanonical State.reset ∧ RingBounded State.reset ∧ State.reset.pending = [] ∧ State.reset.glb.state = .booting

/-- The frame of every host command: what acceptance (R391, R394, R396) and the reply themselves change is named by
Beside; all other state is untouched. -/
def Obligations.AcceptanceFrame : Prop :=
  ∀ (s : State) (e : Env) (status : Nat) (params : List Byte), Beside s (served s e) ∧ Beside s (reply s e status params)

/-- Where a host command has none of its effect: COLD serves nothing, BOOTING discards (R30, R391), a state that the
opcode does not list answers by R32 (R400). That the packet discarded in BOOTING counts in ISX_DROPS0.CTX is the
model's reading (log 50). -/
def Obligations.CommandWithoutServiceIsTurnedAway : Prop :=
  ∀ (e : Env) (p : List Byte) (s : State),
    (e.port < 2 → s.glb.state = .cold → exec (.sessPing e p) s = .next s) ∧
    (e.port < 2 → passes s e.port = true → s.glb.state = .booting → exec (.sessPing e p) s = .next (dropCtx (countRx s e.port))) ∧
    (s.glb.state ≠ .isolated →
      Accepts { opcode := 0x30, states := inAll, len := fun n => decide (9 ≤ n ∧ n ≤ 8960), ok := fun _ => true,
                urgent := false } e p s →
      ∃ t, exec (.planWrite e p) s = .next t ∧
        t = reply (served s e) e (if s.glb.state = .needsRepair then 9 else 5) [] ∧ t.mem = s.mem)

/-- The session and event opcodes of R400: each row's own effect on an accepted command, and nothing else beside
acceptance and reply. -/
def Obligations.SessionCommandsComplete : Prop :=
  ∀ (e : Env) (p : List Byte) (s : State),
    (Accepts (plainCmd 0x11 inAll 0 fun _ => true) e p s →
      exec (.sessConfirm e p) s = .next
        (reply ((served s e).setSession e.context { (served s e).session e.context with state := .isOpen }) e 0 [])) ∧
    (Accepts (plainCmd 0x12 inAll 0 fun _ => true) e p s →
      ∃ t, exec (.sessClose e p) s = .next t ∧ (t.session e.context).state = .free ∧ Beside s t ∧
        (∀ k, k ≠ e.context → t.session k = s.session k)) ∧
    (Accepts (plainCmd 0x13 inAll 0 fun _ => true) e p s →
      exec (.sessPing e p) s = .next (reply (served s e) e 0 (beBytes 8 s.pwr.tick))) ∧
    (Accepts (plainCmd 0x15 inAll 8 fun p => resv0 p 4 4) e p s →
      exec (.eventMask e p) s = .next
        (reply ((served s e).setSession e.context
          { (served s e).session e.context with mask := BitVec.ofNat 32 (be p 0 4) }) e 0 [])) ∧
    (∀ r, s.isx.ring.find? (fun x => x.index == be p 0 4) = some r →
      Accepts (plainCmd 0x16 inAll 8 fun p => resv0 p 4 4) e p s →
      exec (.eventRead e p) s = .next (reply (served s e) e 0 (recordBytes r)))

/-- SESS_OPEN (R397): the session that it sets up. The device's salt is a free value other than 0 (log 5). -/
def Obligations.SessionOpens : Prop :=
  ∀ (e : Env) (p : List Byte) (s : State) (ctx : Nat),
    Accepts { opcode := 0x10, states := inAll, len := fun n => n == 8, ok := fun p => be p 0 8 != 0,
              urgent := false } e p s →
    s.keys.owner.isSome = true → liveSessions s < 256 → openingSessions s < 8 → freeContext s e.port = some ctx →
    ∃ t, exec (.sessOpen e p) s = .next t ∧ (t.session ctx).state = .opening ∧ (t.session ctx).hostMac = e.srcMac ∧
      (t.session ctx).hostIp = e.srcIp ∧ (t.session ctx).hostPort = e.srcPort ∧ (t.session ctx).devIp = e.dstIp ∧
      (t.session ctx).saltA = BitVec.ofNat 64 (be p 0 8) ∧ (t.session ctx).saltB = saltOf s.fresh ∧ saltOf s.fresh ≠ 0 ∧
      (t.session ctx).opening = some e ∧ (t.session ctx).root = s.keys.owner ∧ t.fresh = s.fresh + 1 ∧ t.egress = s.egress ∧ t.mem = s.mem ∧
      (∀ k, k ≠ ctx → t.session k = s.session k)

/-- The two timeouts of R397 and R398, on the tick counter (R472: a tick is 10 ns). -/
def Obligations.SessionTimeoutsFree : Prop :=
  ∀ (ctx : Nat) (s : State), ctx < 16384 →
    ((s.session ctx).state = .opening → (s.session ctx).opening = none → s.pwr.tick - (s.session ctx).repliedAt ≥ 100000000 →
      ∃ t, exec (.sessionOpeningTimeout ctx) s = .next t ∧ t.session ctx = Sess.reset ∧ t.sess = tdel s.sess ctx ∧
        t = { s with sess := t.sess, cip := t.cip } ∧
        ∀ d, ∀ u ∈ (t.cipher d).uses, u ∈ (s.cipher d).uses ∧ (d = portOf ctx → u.name.use = 1 → u.name.ctx ≠ ctx)) ∧
    ((s.session ctx).state ≠ .free → s.isx.idleLimit ≠ 0 → s.pwr.tick - (s.session ctx).lastTick ≥ 100000 * s.isx.idleLimit →
      ∃ t, exec (.sessionIdleTimeout ctx) s = .next t ∧ t.session ctx = Sess.reset ∧ t.sess = tdel s.sess ctx ∧
        t = { s with sess := t.sess, cip := t.cip }) ∧
    (s.pwr.tick - (s.session ctx).repliedAt < 100000000 → exec (.sessionOpeningTimeout ctx) s = .next s) ∧
    (s.pwr.tick - (s.session ctx).lastTick < 100000 * s.isx.idleLimit → exec (.sessionIdleTimeout ctx) s = .next s)

/-- REG_READ (R207, R400) and SPR_REPORT (R438). -/
def Obligations.RegisterReadsComplete : Prop :=
  ∀ (e : Env) (p : List Byte) (s : State),
    (Accepts (plainCmd 0x20 inAll 16 fun p => regOk p && resv0 p 10 6) e p s →
      inRegSpace (regAddr p) = true → inRegSpace (regAddr p + 4 * regCount p - 1) = true →
      exec (.regRead e p) s = .next
        (reply (readRegs (regCount p) (served s e) (regAddr p - regBase)).2 e 0
          (readRegs (regCount p) (served s e) (regAddr p - regBase)).1) ∧
      (readRegs (regCount p) (served s e) (regAddr p - regBase)).1.length = 4 * regCount p ∧
      (readRegs (regCount p) (served s e) (regAddr p - regBase)).2.mem = s.mem ∧
      (readRegs (regCount p) (served s e) (regAddr p - regBase)).2.run = s.run ∧
      (readRegs (regCount p) (served s e) (regAddr p - regBase)).2.glb.state = s.glb.state) ∧
    (Accepts (plainCmd 0xA0 inIRUQN 0 fun _ => true) e p s →
      exec (.sprReport e p) s = .next (reply (served s e) e 0 (sprReportBytes (served s e))))

/-- REG_WRITE (R207, R401): words in order up to the first that is not written; the reply waits for the persistent
writes (R443). -/
def Obligations.RegisterWriteCompletes : Prop :=
  ∀ (e : Env) (p : List Byte) (s : State), Accepts (regWriteCmd p) e p s →
    let start : WriteRun := { next := served s e, status := 0, words := 0, wps := 0, waits := [] }
    let r := writeRegs (regValues p) (regAddr p) start
    exec (.regWrite e p) s = .next (replyAfter r.next e r.waits r.status (beBytes 2 r.words)) ∧
    r.words ≤ regCount p ∧ (r.status = 0 → r.words = regCount p)

/-- Rows for one RW register of the whole device: the value it takes and the frame, for every accepted write in its
states and range (the chapters of the registers; R207, R400). -/
def Obligations.DeviceRegisterRowsComplete : Prop :=
  ∀ (e : Env) (v : W32) (s : State),
    (WordAccepted 0x88 v e s → (s.glb.state = .isolated ∨ s.glb.state = .ready) → -14 ≤ signedOf 8 (v.toNat % 256) → signedOf 8 (v.toNat % 256) ≤ 24 → 
      exec (.glbLossScale e v) s = .next (wordDone { served s e with glb := { s.glb with lsExp := v.toNat % 256, lsClean := 0 } } e)) ∧
    (WordAccepted 0x8C v e s → (s.glb.state = .isolated ∨ s.glb.state = .ready) → 
      exec (.glbLsPolicy e v) s = .next (wordDone { served s e with glb := { s.glb with lsInterval := v.toNat % 2 ^ 15 } } e)) ∧
    (WordAccepted 0xA4 v e s → v.toNat % 65536 ≠ 0 → 
      exec (.glbMarkInterval e v) s = .next (wordDone { served s e with glb := { s.glb with markInterval := v.toNat % 65536 } } e)) ∧
    (WordAccepted 0xC8 v e s → s.glb.state = .ready → (v.toNat % 2 = 0 ∨ (s.run.plan.map (·.fbk)) = some true) → 
      exec (.glbPlanVariant e v) s = .next (wordDone { served s e with glb := { s.glb with planVariant := v.toNat % 2 } } e)) ∧
    (WordAccepted 0xD8 v e s → s.glb.state = .ready → 
      exec (.glbEvalCtl e v) s = .next (wordDone { served s e with glb := { s.glb with evalEn := v.getLsbD 31 } } e)) ∧
    (WordAccepted 0x600F04 v e s → (s.glb.state = .isolated ∨ s.glb.state = .ready) → 0xF4240 ≤ v.toNat → 
      exec (.lnkDownLimit e v) s = .next (wordDone { served s e with lnk := { s.lnk with downLimit := v.toNat } } e)) ∧
    (WordAccepted 0x400008 v e s → 1 ≤ v.toNat % 256 → v.toNat % 256 ≤ 100 → 
      exec (.fulPace e v) s = .next (wordDone (scaleRates (scaleRates { served s e with ful := { s.ful with shareEcn := v.getLsbD 8, share := v.toNat % 256 } } 0) 1) e)) ∧
    (WordAccepted 0x40000C v e s → v ≠ 0 → 
      exec (.fulJoinLimit e v) s = .next (wordDone { served s e with ful := { s.ful with joinLimit := v.toNat } } e)) ∧
    (WordAccepted 0x70008 v e s → 
      exec (.isxIdleLimit e v) s = .next (wordDone { served s e with isx := { (served s e).isx with idleLimit := v.toNat } } e)) ∧
    (WordAccepted 0x40008 v e s → 
      exec (.pstWearAddr e v) s = .next (wordDone { served s e with pst := { s.pst with wearAddr := v.toNat % 2 ^ 26 } } e))

/-- Rows for one RW register of a unit that comes in numbers (R106, R128, R224, R235, R412): the value it takes and
the frame. -/
def Obligations.UnitRegisterRowsComplete : Prop :=
  ∀ (e : Env) (v : W32) (s : State),
    (∀ c < 480, WordAccepted (0x2000008 + 0x1000 * c) v e s → (s.glb.state = .isolated ∨ s.glb.state = .ready) → 
      exec (.coreWaitLimit e c v) s = .next (wordDone ((served s e).modCore c fun x => { x with waitLimit := v.toNat }) e)) ∧
    (∀ c < 480, ∀ set < 8, ∀ reg < 4, WordAccepted (0x2400100 + 0x1000 * c + 16 * set + 4 * reg) v e s → (s.glb.state = .isolated ∨ s.glb.state = .ready) → 
      exec (.epilogueSetWrite e c set reg v) s = .next (wordDone ((served s e).modCore c fun x => { x with epi := tput x.epi (4 * set + reg) (v &&& epiMask reg) }) e)) ∧
    (∀ n < 20, ∀ set < 8, ∀ field < 7, WordAccepted (0xA00100 + 0x10000 * n + 64 * set + 4 * field) v e s → (s.glb.state = .isolated ∨ s.glb.state = .ready) → 
      exec (.updHpWrite e n set field v) s = .next (wordDone ((served s e).modUnit n fun u => u.setHp set field v) e)) ∧
    (∀ n < 20, WordAccepted (0x800014 + 0x10000 * n) v e s → v.toNat % 65536 ≠ 0 → 
      exec (.stkScrubCtl e n v) s = .next (wordDone ((served s e).modStack n fun k => { k with
        scrubEn := v.getLsbD 31, scrubPeriod := v.toNat % 65536, fastLate := k.fastLate && v.getLsbD 31
        denseLate := k.denseLate && v.getLsbD 31 }) e)) ∧
    (∀ n < 2, WordAccepted (0x30002C + 0x10000 * n) v e s → 
      exec (.ethDscp e n v) s = .next (wordDone ((served s e).modEther n fun x => { x with dscp := BitVec.ofNat 32 (v.toNat % 2 ^ 18) }) e)) ∧
    (∀ n < 2, WordAccepted (0x300030 + 0x10000 * n) v e s → 
      exec (.ethPfc e n v) s = .next (wordDone ((served s e).modEther n fun x => { x with pfc := v &&& 0x000F7777 }) e))

/-- Rows for WP registers (R12, R443, R444): the write that each queues and the reply that waits for it. -/
def Obligations.StoredRegisterRowsComplete : Prop :=
  ∀ (e : Env) (v : W32) (s : State),
    (WordAccepted 0xA0 v e s → (s.glb.state = .isolated ∨ s.glb.state = .ready) → StoreTakes ixCommitMark v.toNat s →
      exec (.glbCommitMark e v) s = .next (storing (served s e) e ixCommitMark v.toNat .none)) ∧
    (WordAccepted 0x60000 v e s → 0x10000 ≤ v.toNat → StoreTakes ixWindow v.toNat s →
      exec (.sprLastingWindow e v) s = .next (storing (served s e) e ixWindow v.toNat .none)) ∧
    (WordAccepted 0x60004 v e s → 2 ≤ v.toNat % 256 → StoreTakes ixEvents (v.toNat % 256) s →
      exec (.sprLastingEvents e v) s = .next (storing (served s e) e ixEvents (v.toNat % 256) .none)) ∧
    (WordAccepted 0x600F00 v e s → (s.glb.state = .isolated ∨ s.glb.state = .ready) → StoreTakes ixMiswire (v.toNat % 2) s →
      exec (.lnkMiswirePolicy e v) s = .next (storing (served s e) e ixMiswire (v.toNat % 2) .none)) ∧
    (WordAccepted 0x400000 v e s → fulIdle s = true → v.toNat % 65536 ≠ 0 → v.toNat % 65536 ≠ pstLatest s ixIsxPort → v.toNat % 65536 ≠ s.isx.port → StoreTakes ixFulPort (v.toNat % 65536) s →
      exec (.fulUdpPort e v) s = .next (storing (served s e) e ixFulPort (v.toNat % 65536) .none)) ∧
    (WordAccepted 0x400004 v e s → fulIdle s = true → StoreTakes ixRoundBase v.toNat s →
      exec (.fulRoundBase e v) s = .next (storing (served s e) e ixRoundBase v.toNat .none)) ∧
    (WordAccepted 0x70000 v e s → v.toNat % 65536 ≠ 0 → v.toNat % 65536 ≠ pstLatest s ixFulPort → v.toNat % 65536 ≠ pstValue s ixFulPort → v.toNat % 65536 ∉ planLports s → StoreTakes ixIsxPort (v.toNat % 65536) s →
      exec (.isxUdpPort e v) s = .next (storing (served s e) e ixIsxPort (v.toNat % 65536) .none)) ∧
    (∀ n < 2, WordAccepted (0x30000C + 0x10000 * n) v e s → ipv4Ok v.toNat = true → StoreTakes (ixEth n 0) v.toNat s →
      exec (.ethIpv4 e n v) s = .next (storing (served s e) e (ixEth n 0) v.toNat .none)) ∧
    (∀ n < 2, ∀ w < 4, WordAccepted (0x300010 + 0x10000 * n + 4 * w) v e s → (w ≠ 3 ∨ v.toNat / 2 ^ 24 ≠ 255) → StoreTakes (ixEth n (1 + w)) v.toNat s →
      exec (.ethIpv6 e n w v) s = .next (storing (served s e) e (ixEth n (1 + w)) v.toNat .none)) ∧
    (∀ n < 2, WordAccepted (0x300020 + 0x10000 * n) v e s → (v.getLsbD 15 = true → v.toNat % 4096 ≠ 0 ∧ v.toNat % 4096 ≠ 0xFFF) → StoreTakes (ixEth n 5) (v.toNat % 4096 + b2n (v.getLsbD 15) * 2 ^ 15) s →
      exec (.ethVlan e n v) s = .next (storing (served s e) e (ixEth n 5) (v.toNat % 4096 + b2n (v.getLsbD 15) * 2 ^ 15) .none)) ∧
    (∀ n < 2, WordAccepted (0x300024 + 0x10000 * n) v e s → StoreTakes (ixEth n 6) v.toNat s →
      exec (.ethNexthopLo e n v) s = .next (storing (served s e) e (ixEth n 6) v.toNat (.nextHop n))) ∧
    (∀ n < 2, WordAccepted (0x300028 + 0x10000 * n) v e s → v.getLsbD 8 = false → StoreTakes (ixEth n 7) (v.toNat % 65536) s →
      exec (.ethNexthopHi e n v) s = .next (storing (served s e) e (ixEth n 7) (v.toNat % 65536) .none))

/-- R106, whole. -/
def Obligations.WaitLimitWriteStates : Prop :=
  ∀ (c v : Nat) (s : State), c < 480 →
    (s.glb.state = .isolated ∨ s.glb.state = .ready →
      (writeReg s (0x2000008 + 0x1000 * c) v).status = 0 ∧
      (writeReg s (0x2000008 + 0x1000 * c) v).next = s.modCore c fun x => { x with waitLimit := v }) ∧
    (s.glb.state ≠ .isolated → s.glb.state ≠ .ready →
      (writeReg s (0x2000008 + 0x1000 * c) v).status = 5 ∧ (writeReg s (0x2000008 + 0x1000 * c) v).next = s)

/-- R312, whole. -/
def Obligations.DownLimitWriteRule : Prop :=
  ∀ (v : Nat) (s : State),
    (s.glb.state = .isolated ∨ s.glb.state = .ready →
      (0x000F4240 ≤ v → (writeReg s 0x600F04 v).status = 0 ∧
        (writeReg s 0x600F04 v).next = { s with lnk := { s.lnk with downLimit := v } }) ∧
      (v < 0x000F4240 → (writeReg s 0x600F04 v).status = 7 ∧ (writeReg s 0x600F04 v).next = s)) ∧
    (s.glb.state ≠ .isolated → s.glb.state ≠ .ready →
      (writeReg s 0x600F04 v).status = 5 ∧ (writeReg s 0x600F04 v).next = s)

/-- Plan space (R248, R253): what a write stores and where, its frame byte by byte, and what a read answers. -/
def Obligations.PlanSpaceCommandsComplete : Prop :=
  ∀ (e : Env) (p : List Byte) (s : State),
    (Accepts { opcode := 0x30, states := inI, len := fun n => decide (9 ≤ n ∧ n ≤ 8960), ok := fun _ => true,
               urgent := false } e p s →
      MemoryCanonical s → s.long.commit = none → be p 0 8 + (p.length - 8) ≤ planSpace →
      ∃ t, exec (.planWrite e p) s = .next t ∧ Beside { s with mem := t.mem } t ∧
        (∀ i < p.length - 8, readByte t (planAddr (be p 0 8 + i)) = p.getD (8 + i) 0) ∧
        (∀ a, (∀ i < p.length - 8, a ≠ planAddr (be p 0 8 + i)) → readByte t a = readByte s a)) ∧
    (Accepts (plainCmd 0x31 inIRUQ 16 fun p => resv0 p 12 4 && decide (1 ≤ be p 8 4 ∧ be p 8 4 ≤ 8960)) e p s →
      be p 0 8 + be p 8 4 ≤ planSpace →
      exec (.planRead e p) s = .next (reply (served s e) e 0 (planBytes s (be p 0 8) (be p 8 4))))

/-- PLAN_COMMIT, orders 1 to 5 of R254, with the reasons of R255: both outcomes, decided by planReason. Orders 6 and 7
of R254: the committed plan, and the refusal of R297. -/
def Obligations.PlanCommitCompletes : Prop :=
  (∀ (e : Env) (p : List Byte) (s : State),
    Accepts (plainCmd 0x32 inI 8 fun p => decide (be p 0 1 < 2) && resv0 p 1 7) e p s →
    s.glb.imageConfirmed = true → s.long.commit = none →
    let r := served s e
    let resume := be p 0 1 == 1
    (planReason r resume = 0 →
      ∃ t, exec (.planCommit e p) s = .next t ∧ t.long.commit = some e ∧
        t.run.committing = some (planOf r, resume, savedOf r) ∧ t.glb.state = .isolated ∧ t.glb.rseed = (planOf r).seed ∧
        (resume = false → t.run.step = 0 ∧ t.glb.lsExp = 16 ∧ t.glb.lsClean = 0 ∧ t.egress = s.egress)) ∧
    (planReason r resume ≠ 0 →
      exec (.planCommit e p) s = .next
        (reply { r with run := { r.run with reason := planReason r resume } } e 8 []))) ∧
  (∀ (s : State) (p : Plan) (resume : Bool) (kept : Saved) (e : Env),
    s.run.committing = some (p, resume, kept) → s.long.commit = some e → s.glb.state = .isolated → s.run.plan = none →
    foreignPorts s p ((usedEntries p).map (·.1)) = [] →
    (∀ m, wiringMap s p = some m → foreignPorts s p (m.map (·.2)) = [] → buddyWired s p = true → bit p.bmask s.lnk.bpos = true →
      ∃ t, exec .planCommitDone s = .next t ∧ t.glb.state = .ready ∧ t.run.plan = some p ∧ t.run.committing = none ∧
        t.long.commit = none ∧ t.run.reason = 0 ∧ t.run.resumed = resume ∧ t.glb.planVariant = p.vdef ∧ t.lnk.shared = true ∧
        t.lnk.bmask = p.bmask ∧ t.spr.buddyUse = s.spr.buddy ∧ t.spr.heldUse = s.spr.heldFor ∧ t.spr.replicasUse = s.spr.replicas) ∧
    (wiringMap s p = none →
      ∃ t, exec .planCommitDone s = .next t ∧ t.glb.state = .isolated ∧ t.run.plan = none ∧ t.run.committing = none ∧
        t.long.commit = none ∧ t.run.reason = 11 ∧ t.glb.rseed = 0 ∧ t.mem = s.mem))

/-- PLAN_RELEASE (R258, with R58 and R308). -/
def Obligations.PlanReleaseCompletes : Prop :=
  ∀ (e : Env) (p : List Byte) (s : State), Accepts (plainCmd 0x33 inR 0 fun _ => true) e p s →
    ∃ t, exec (.planRelease e p) s = .next t ∧ t.glb.state = .isolated ∧ t.glb.rseed = 0 ∧ t.run.plan = none ∧
      t.lnk.shared = false ∧ t.mem = s.mem ∧ t.gens = s.gens ∧ (∀ c, (t.core c).rf = (s.core c).rf) ∧ t.glb.state ∈ inI

/-- The step and evaluation opcodes of R400: effect, reply and frame. That EVAL_STATUS reads all ones before the first
slot is the model's choice (log 34), and that a step needs COMPUTE, UPDATE and FABRIC (R399) is its reading (log 64).
-/
def Obligations.StepCommandsComplete : Prop :=
  ∀ (e : Env) (p : List Byte) (s : State),
    (Accepts (plainCmd 0x40 inR 8 fun p => resv0 p 4 4) e p s →
      (s.inReset 1 = true ∨ s.inReset 2 = true ∨ s.inReset 3 = true → exec (.stepStart e p) s = .next (reply (served s e) e 1 [])) ∧
      (s.inReset 1 = false → s.inReset 2 = false → s.inReset 3 = false →
      (∀ n ∈ usedPorts s, (s.port n).state = 4) → (∀ c ∈ s.fctx, c.2.state ≠ 3) →
      exec (.stepStart e p) s = .next (reply { served s e with
        glb := { s.glb with state := .running }
        run := { s.run with
          stepsLeft := if be p 0 4 = 0 then none else some (be p 0 4), stopAt := none, fallback := s.glb.planVariant == 1
          phase := 7, attempt := 0, tainted := false, abandoned := false, ending := false, releaseAtResume := false
          erasedStep := none } } e 0 []))) ∧
    (Accepts (plainCmd 0x41 inUQ 0 fun _ => true) e p s → runInProgress s = true →
      exec (.stepStop e p) s = .next
        (reply { served s e with run := { s.run with stopAt := some (s.run.stopAt.getD s.run.step) } } e 0
          (beBytes 8 (s.run.stopAt.getD s.run.step)))) ∧
    (Accepts (plainCmd 0x42 inIRUQ 0 fun _ => true) e p s →
      exec (.stepStatus e p) s = .next (reply (served s e) e 0
        (beBytes 8 s.run.step ++ beBytes 1 s.run.phase ++ beBytes 1 (b2n s.run.tainted) ++ [0, 0] ++ beBytes 4 s.glb.reruns))) ∧
    (∀ q, Accepts (plainCmd 0x50 inRUQ 16 fun p => resv0 p 12 4 && decide (1 ≤ be p 8 4 ∧ be p 8 4 ≤ 8960)) e p s →
      s.run.plan = some q → withinKind q 6 (be p 0 8) (be p 8 4) = true →
      exec (.evalRead e p) s = .next (reply (served s e) e 0 (readBytes s (be p 0 8) (be p 8 4)))) ∧
    (Accepts (plainCmd 0x51 inRUQ 0 fun _ => true) e p s →
      exec (.evalStatus e p) s = .next (reply (served s e) e 0
        (beBytes 8 (s.run.evalStep.getD (2 ^ 64 - 1)) ++ beBytes 2 s.glb.evalSlots)))

/-- The urgent opcodes (R31, R33, R306) and the end of parking (R404, R405). That the ports read DOWN with reason 4 is
how the model reads R306 and R310 (log 35). -/
def Obligations.UrgentCommandsComplete : Prop :=
  ∀ (e : Env) (p : List Byte) (s : State),
    (Accepts (urgentCmd 1 0 fun _ => true) e p s →
      (s.glb.state = .isolated ∨ s.glb.state = .ready ∨ s.glb.state = .running →
        ∃ t, exec (.quiesce e p) s = .next t ∧ t.glb.state = .quiesced ∧ t.glb.prior = some s.glb.state ∧
          t.isx.parking = true ∧ t.isx.quiesceWait = s.isx.quiesceWait ++ [e] ∧ t.egress = s.egress ∧
          ((∀ x ∈ s.cores, x.2.bun = none → x.2.flight = []) → t.mem = s.mem ∧ ∀ c, (t.core c).rf = (s.core c).rf)) ∧
      (s.glb.state = .quiesced ∨ s.glb.state = .needsRepair ∨ s.glb.state = .alarm → s.isx.parking = false →
        exec (.quiesce e p) s = .next (reply (served s e) e 0 (beBytes 4 (stateWord s))))) ∧
    (Accepts (urgentCmd 2 0 fun _ => true) e p s →
      (s.glb.state = .quiesced → s.isx.parking = false → s.run.ending = false → s.run.releaseAtResume = false →
        (s.glb.prior = some .running → ∀ g < 40, ∀ k < 10, (s.engine g k).lists = []) →
        ∃ t, exec (.resume e p) s = .next t ∧ t.glb.state = s.glb.prior.getD .isolated ∧ t.glb.prior = none) ∧
      (s.glb.state ≠ .quiesced →
        exec (.resume e p) s = .next (reply (served s e) e 5 (beBytes 4 (stateWord s))))) ∧
    (Accepts (urgentCmd 3 8 fun p => decide (be p 0 2 = 0)) e p s →
      ∃ t, exec (.fenceLinks e p) s = .next t ∧ t.mem = s.mem ∧
        (∀ n < 48, bit (be p 0 8) n = true → (t.port n).state = 0 ∧ (t.port n).reason = 4) ∧
        (∀ n, (48 ≤ n ∨ bit (be p 0 8) n = false) → t.port n = s.port n)) ∧
    (s.isx.parking = true → parked s = true →
      ∃ t, exec .parkingEnd s = .next t ∧ t.isx.parking = false ∧ t.isx.quiesceWait = [] ∧ t.isx.resumeWait = [] ∧
        (s.isx.resumeWait = [] → t.glb = s.glb ∧ t.mem = s.mem ∧ t.cores = s.cores))

/-- Function resets on request (R37 to R39) and on a watchdog (R418, R434). -/
def Obligations.FunctionResetsComplete : Prop :=
  ∀ (e : Env) (p : List Byte) (s : State),
    (Accepts (plainCmd 0x60 (if be p 0 1 = 0 then inAll else inIRUQN) 8 fun p => decide (be p 0 1 ≤ 6) && resv0 p 1 7) e p s →
      (s.inReset (be p 0 1) = false →
        ∃ t, exec (.fnReset e p) s = .next t ∧ t.inReset (be p 0 1) = true ∧
          t.long.fnReset = s.long.fnReset ++ [(be p 0 1, some e)]) ∧
      (s.inReset (be p 0 1) = true → exec (.fnReset e p) s = .next (reply (served s e) e 1 []))) ∧
    (∀ fn < 7, ∀ w, tfind s.long.fnReset fn = some w → s.isx.held = [] →
      ∃ t, exec (.fnResetEnd fn) s = .next t ∧ t.inReset fn = false ∧ tfind t.long.fnReset fn = none) ∧
    (working s = true →
      ∃ t, exec .mgmtWatchdogExpiry s = .next t ∧ t.inReset 0 = true ∧
        t.spr.mgmtExpiries = Nat.min 0xFFFF (s.spr.mgmtExpiries + 1)) ∧
    (working s = true → s.glb.state ≠ .alarm → ∃ t, exec .fuelleWatchdogExpiry s = .next t ∧ t.inReset 4 = true)

/-- The Fuelle opcodes of R400 with the conditions of R342 and R343. The salt is a free value other than 0 (log 5). -/
def Obligations.FuelleCommandsComplete : Prop :=
  ∀ (e : Env) (p : List Byte) (s : State),
    (Accepts (plainCmd 0x70 inRUQ 40 fulOpenOk) e p s →
      (s.inReset 4 = true → exec (.fulOpen e p) s = .next (reply (served s e) e 1 [])) ∧
      (s.inReset 4 = false → fulOpenStatus (served s e) p = 0 →
        ∃ t, exec (.fulOpen e p) s = .next t ∧
          (t.fuelle (be p 0 2)).state = (if bit (be p 28 1) 1 then 3 else 1) ∧
          (t.fuelle (be p 0 2)).peerIp = BitVec.ofNat 128 (be p 4 16) ∧ (t.fuelle (be p 0 2)).peerPort = be p 20 2 ∧
          (t.fuelle (be p 0 2)).peerCtx = be p 2 2 ∧ (t.fuelle (be p 0 2)).slot = be p 22 2 ∧
          (t.fuelle (be p 0 2)).weight = BitVec.ofNat 32 (be p 32 4) ∧ (t.fuelle (be p 0 2)).k = be p 25 1 ∧
          (t.fuelle (be p 0 2)).m = be p 26 1 ∧ (t.fuelle (be p 0 2)).root = s.keys.cur ∧
          (t.fuelle (be p 0 2)).saltOwn = saltOf s.fresh ∧ t.mem = s.mem) ∧
      (s.inReset 4 = false → fulOpenStatus (served s e) p ≠ 0 →
        exec (.fulOpen e p) s = .next (reply (served s e) e (fulOpenStatus (served s e) p) []))) ∧
    (Accepts (plainCmd 0x71 inRUQ 8 fulCtxOk) e p s →
      (s.inReset 4 = true → exec (.fulClose e p) s = .next (reply (served s e) e 1 [])) ∧
      (s.inReset 4 = false →
        ∃ t, exec (.fulClose e p) s = .next t ∧ (t.fuelle (be p 0 2)).state = 0 ∧
          (∀ k, k ≠ be p 0 2 → t.fuelle k = s.fuelle k) ∧ t.mem = s.mem)) ∧
    (Accepts (plainCmd 0x72 inRUQ 8 fulCtxOk) e p s →
      exec (.fulStatus e p) s = .next (reply (served s e) e 0
        ([BitVec.ofNat 8 (s.fuelle (be p 0 2)).state, 0, 0, 0] ++ beBytes 4 (s.fuelle (be p 0 2)).srtt ++
          beBytes 4 (s.fuelle (be p 0 2)).rate ++ beBytes 4 (s.fuelle (be p 0 2)).formed ++
          [BitVec.ofNat 8 (s.fuelle (be p 0 2)).gen])))

/-- The firmware opcodes that read and program the flash (R454, R455). A manifest whose counts are out of range is cut
at 8,960 bytes by the model's choice (log 36). -/
def Obligations.FlashCommandsComplete : Prop :=
  ∀ (e : Env) (p : List Byte) (s : State),
    (Accepts { plainCmd 0x80 inIRUQN 0 (fun p => slotOk p && resv0 p 1 7) with len := fun n => decide (17 ≤ n ∧ n ≤ 8960) } e p s →
      slotStatus s (be p 0 1) true = 0 → be p 8 8 + (p.length - 16) ≤ areaSize (be p 0 1) →
      (erasing s (be p 0 1) = true → exec (.fwWrite e p) s = .next (reply (served s e) e 1 [])) ∧
      (erasing s (be p 0 1) = false →
      cellsFrom (fun k => flashDefault s (k / 2 ^ 32) (k % 2 ^ 32)) 0 s.fw.flash = true →
      ∃ t, exec (.fwWrite e p) s = .next t ∧ t.mem = s.mem ∧ t.glb = s.glb ∧
        (∀ i < p.length - 16, flashByte t (be p 0 1) (be p 8 8 + i) = flashByte s (be p 0 1) (be p 8 8 + i) &&& p.getD (16 + i) 0) ∧
        (∀ area < 3, ∀ off < 2 ^ 32, (area ≠ be p 0 1 ∨ off < be p 8 8 ∨ be p 8 8 + (p.length - 16) ≤ off) →
          flashByte t area off = flashByte s area off))) ∧
    (Accepts (plainCmd 0x81 inIRUQN 24 fwReadOk) e p s → be p 8 8 + be p 16 4 ≤ areaSize (be p 0 1) →
      exec (.fwRead e p) s = .next (if erasing s (be p 0 1) = true then reply (served s e) e 1 []
        else reply (served s e) e 0 (flashBytes s (be p 0 1) (be p 8 8) (be p 16 4)))) ∧
    (Accepts (plainCmd 0x84 inIRUQN 8 fun p => slotOk p && resv0 p 1 7) e p s → flashLe s (be p 0 1) 0 4 = manifestMagic →
      exec (.fwManifest e p) s = .next (if erasing s (be p 0 1) = true then reply (served s e) e 1 [] else
        (reply (served s e) e 0 (flashBytes s (be p 0 1) 0 (Nat.min 8960 (manifestSize s (be p 0 1))))))) ∧
    (Accepts (plainCmd 0x83 inIRUQN 0 fun _ => true) e p s →
      exec (.fwStatus e p) s = .next (reply (served s e) e 0
        ([BitVec.ofNat 8 s.fw.active, BitVec.ofNat 8 (bootRec s).pendingSlot,
          BitVec.ofNat 8 (b2n s.fw.trial + 2 * b2n s.fw.recovery), BitVec.ofNat 8 (bootRec s).result] ++
          beBytes 4 (pstValue s ixRollback) ++ beBytes 4 s.fw.svn ++ beBytes 4 (confirmLeft s) ++ beBytes 4 (pstValue s ixBoots))))

/-- FW_STAGE (its three actions are three rows of the table) and the end of an erase. -/
def Obligations.StageCommandsComplete : Prop :=
  ∀ (e : Env) (p : List Byte) (s : State),
    (Accepts (plainCmd 0x82 inIRUQN 8 fun p => slotOk p && decide (be p 1 1 ≤ 2) && resv0 p 2 6) e p s →
      (be p 1 1 = 0 → slotStatus s (be p 0 1) true = 0 → s.long.erase = none →
        ∃ t, exec (.fwErase e p) s = .next t ∧ t.long.erase = some (be p 0 1, e) ∧ t.mem = s.mem ∧ t.glb = s.glb) ∧
      (be p 1 1 = 1 → slotStatus s (be p 0 1) false = 0 →
        exec (.fwStage e p) s = .next (writeBoot (served s e) e { bootRecLatest s with pendingSlot := be p 0 1 })) ∧
      (be p 1 1 = 2 → s.fw.trial = false → (bootRecLatest s).pendingSlot = be p 0 1 →
        exec (.fwUnstage e p) s = .next (writeBoot (served s e) e { bootRecLatest s with pendingSlot := 3 }))) ∧
    (∀ slot, s.long.erase = some (slot, e) →
      ∃ t, exec .fwEraseDone s = .next t ∧ t = reply { fillArea s slot 1 with long := { s.long with erase := none } } e 0 [] ∧
        ∀ off < 2 ^ 32, flashByte t slot off = 0xFF)

/-- Identity, provisioning and attestation (R363 to R367, R383, R463, R464). That a failed unwrap counts in
CIP_TAG_FAIL of IOD0 (log 61), and that its wrap key counts in CIP_DERIVED of die 0 within the command (log 78), are
the model's readings. -/
def Obligations.IdentityCommandsComplete : Prop :=
  ∀ (e : Env) (p : List Byte) (s : State),
    (Accepts (plainCmd 0x90 inAll 8 fun p => be p 0 2 == 0 && resv0 p 2 6) e p s →
      exec (.idCert e p) s = .next (if s.keys.identity = true ∧ s.keys.kem = true
        then reply (served s e) e 0 (beBytes 2 1 ++ identityCert) else reply (served s e) e 1 [])) ∧
    (Accepts (plainCmd 0x91 inAll 8 fun p => be p 0 2 == 0 && resv0 p 2 6) e p s →
      exec (.idKem e p) s = .next (if s.keys.identity = true ∧ s.keys.kem = true
        then reply (served s e) e 0 (beBytes 2 1 ++ signedKem) else reply (served s e) e 1 [])) ∧
    (Accepts rootCmd e p s →
      (alreadyHeld s p = true → exec (.rootProvision e p) s = .next (reply (served s e) e 0 [])) ∧
      (alreadyHeld s p = false → mayProvision s e p = false → exec (.rootProvision e p) s = .next (reply (served s e) e 4 [])) ∧
      (alreadyHeld s p = false → mayProvision s e p = true → s.long.provision = none → s.keys.kem = true →
        exec (.rootProvision e p) s = .next { served s e with long := { s.long with provision := some (e, p) } })) ∧
    (Accepts (plainCmd 0x93 inAll 32 fun _ => true) e p s → s.keys.identity = true → s.long.quote = none →
      exec (.attestQuote e p) s = .next { served s e with long := { s.long with quote := some (e, p) } }) ∧
    (s.long.quote = some (e, p) →
      exec .quoteDone s = .next (reply { s with long := { s.long with quote := none } } e 0
        (quoteBody s p ++ identitySign "MQ840-QUOTE" (quoteBody s p)))) ∧
    (s.long.provision = some (e, p) → sealing s = false →
      (unwrap p = none → exec .unwrapDone s = .next
        (reply (countTagFail { countDerived s 0 1 with long := { s.long with provision := none } } 0) e 4 [])) ∧
      (∀ k, unwrap p = some k → blobTarget p ≠ 0 →
        ∃ t, exec .unwrapDone s = .next t ∧ t.keys.cur = some { id := blobId p, key := k } ∧ t.keys.old = s.keys.cur ∧
          t.keys.owner = s.keys.owner ∧ t.long.provision = none ∧ t.mem = s.mem)) ∧
    (s.glb.state ≠ .cold → (s.keys.identity && s.keys.kem) = false →
      ∃ t, exec .keyRegenDone s = .next t ∧ t.keys = { s.keys with identity := true, kem := true } ∧ t = { s with keys := t.keys, cip := t.cip } ∧
        (t.cipher 0).derived = Nat.min 0xFFFFFFFF ((s.cipher 0).derived + 3))

/-- Alarms (R382 to R385), the key-derivation unit (R380) and the known-answer tests (R379, R434). That of the
requests that wait outside a full unit the first come takes the place freed is the model's choice (log 78). -/
def Obligations.AlarmsAndTests : Prop :=
  ∀ s : State,
    (∀ code, wellFormed (.minorAlarm code) = true → s.glb.state ≠ .cold → s.keys.majorAt ≠ some s.pwr.tick →
      ∃ t, exec (.minorAlarm code) s = .next t ∧ t.glb.state = s.glb.state ∧ t.keys.identity = false ∧ t.keys.kem = false ∧
        t.keys.minorAlarms = Nat.min 0xFFFF (s.keys.minorAlarms + 1) ∧ t.keys.lastAlarm = code ∧ t.keys.owner = s.keys.owner ∧
        t.keys.cur = s.keys.cur ∧ t.keys.old = s.keys.old ∧ t.mem = s.mem) ∧
    (s.glb.state ≠ .cold →
      ∃ t, exec .majorAlarm s = .next t ∧ (s.fw.dead = false → t.glb.state = .alarm) ∧ t.glb.prior = none ∧ t.keys.cur = none ∧ t.keys.old = none ∧
        t.keys.owner = s.keys.owner ∧ t.keys.identity = false ∧ t.keys.kem = false ∧ t.lnk.shared = false ∧
        (∀ k, (t.fuelle k).state = 0)) ∧
    (∀ iod < 2, ∀ r l, (s.cipher iod).kdf = r :: l → s.inReset 6 = false →
      ∃ u, exec (.keyDerived iod) s = .next (keyReady u iod r) ∧ u = { s with cip := u.cip } ∧
        ((s.cipher iod).kdfOut = [] → (u.cipher iod).kdf = l) ∧
        (∀ w k, (s.cipher iod).kdfOut = w :: k → (u.cipher iod).kdf = insertReq w l ∧ (u.cipher iod).kdfOut = k)) ∧
    (∀ iod < 2, ∀ core < 5, exec (.cipherKat iod core true) s = .next s ∧
      (s.glb.state ≠ .cold → (s.cipher iod).cores.getLsbD core = true →
        ∃ t, exec (.cipherKat iod core false) s = .next t ∧ tfind (t.cipher iod).katFail core = some s.pwr.tick))

/-- The spares opcodes (R424, R435, R436, R438) and the end of a refill. -/
def Obligations.SparesCommandsComplete : Prop :=
  ∀ (e : Env) (p : List Byte) (s : State),
    (Accepts { plainCmd 0xA1 inIR 0 buddyOk with len := fun n => decide (40 ≤ n ∧ n ≤ 40 + 24 * 64 ∧ (n - 40) % 24 = 0) } e p s →
      exec (.buddySet e p) s = .next (reply { served s e with spr := { s.spr with
        buddy := BitVec.ofNat 128 (be p 0 16), heldFor := BitVec.ofNat 128 (be p 16 16)
        replicas := (List.range (be p 32 2)).map (replicaEntry p) } } e 0 [])) ∧
    (Accepts (refillCmd p) e p s → s.long.refill = none → portsTo s (BitVec.ofNat 128 (be p 4 16)) ≠ [] →
      (be p 0 1 = 0 → s.run.plan.isSome = true → reflectionStale s = false →
        ∃ t, exec (.refillSource e p) s = .next t ∧ t.long.refill = some (0, e, BitVec.ofNat 128 (be p 4 16)) ∧ t.mem = s.mem) ∧
      (be p 0 1 = 1 →
        exec (.refillTarget e p) s = .next (match fillPlan (served s e) with
          | none => reply (served s e) e 8 []
          | some q => { served s e with
              long := { s.long with refill := some (1, e, BitVec.ofNat 128 (be p 4 16)) }
              lnk := { s.lnk with fills := (List.range 20).map fun n => (n, fillOf q n) } }))) ∧
    (∀ role serial, s.long.refill = some (role, e, serial) → ∀ result,
      ∃ t, exec (.refillDone result) s = .next t ∧ t.long.refill = none ∧ t.lnk.fills = [] ∧ t.mem = s.mem) ∧
    (Accepts (plainCmd 0xA3 inR 32 fun _ => true) e p s → be p 0 16 ≠ 0 →
      ∃ t, exec (.repairDone e p) s = .next t ∧
        t.spr.buddy = (if s.spr.buddy = BitVec.ofNat 128 (be p 0 16) then BitVec.ofNat 128 (be p 16 16) else s.spr.buddy) ∧
        t.spr.heldFor = (if s.spr.heldFor = BitVec.ofNat 128 (be p 0 16) then BitVec.ofNat 128 (be p 16 16) else s.spr.heldFor) ∧
        t.glb = s.glb ∧ t.run = s.run)

/-- The link opcodes (R292, R295, R306, R400). The model reads that LNK_UNFENCE acts on every port of reason 4,
whatever its state (log 35), and that LNK_UNFENCE alone answers QUARANTINED (log 54). The ingest opcodes (R400, R407).
An endpoint given in ISOLATED stands for the next commit by the model's reading (log 37). -/
def Obligations.LinkAndIngestCommandsComplete : Prop :=
  (∀ (e : Env) (p : List Byte) (s : State),
    (Accepts (plainCmd 0xB0 inIRUQ 8 fun p => decide (be p 0 2 = 0)) e p s →
      (s.inReset 3 = true → exec (.lnkRetrain e p) s = .next (reply (served s e) e 1 [])) ∧
      (s.inReset 3 = false → ∃ t, exec (.lnkRetrain e p) s = .next t ∧ t.mem = s.mem ∧
        (∀ n < 48, bit (be p 0 8) n = true → (s.port n).state ≠ 0 →
          ((s.port n).state = 5 → (s.port n).reason ≠ 4 ∧ (s.port n).reason ≠ 6 ∧ (s.port n).reason ≠ 7) →
          (t.port n).state = 0 ∧ (t.port n).reason = 0) ∧
        (∀ n, (48 ≤ n ∨ bit (be p 0 8) n = false) → t.port n = s.port n))) ∧
    (Accepts (plainCmd 0xB1 inIRUQ 8 fun p => decide (be p 0 2 = 0)) e p s →
      (s.inReset 3 = true → exec (.lnkUnfence e p) s = .next (reply (served s e) e 1 [])) ∧
      (s.inReset 3 = false → (∃ n < 48, bit (be p 0 8) n = true ∧ (s.port n).state = 6) →
        exec (.lnkUnfence e p) s = .next (reply (served s e) e 10 [])) ∧
      (s.inReset 3 = false → (∀ n < 48, bit (be p 0 8) n = true → (s.port n).state ≠ 6) →
        ∃ t, exec (.lnkUnfence e p) s = .next t ∧ t.mem = s.mem ∧ t.run = s.run ∧
          (∀ n < 48, bit (be p 0 8) n = true → (s.port n).reason = 4 → (t.port n).state = 0 ∧ (t.port n).reason = 0) ∧
          (∀ n, (48 ≤ n ∨ bit (be p 0 8) n = false ∨ (s.port n).reason ≠ 4) → t.port n = s.port n))) ∧
    (∀ i, Accepts (plainCmd 0xB2 inIRUQN 8 fun p => decide (be p 0 1 < 48) && resv0 p 1 7) e p s →
      (s.port (be p 0 1)).nbr = some i → exec (.lnkIdent e p) s = .next (reply (served s e) e 0 i.raw))) ∧
  (∀ (e : Env) (p : List Byte) (s : State),
    (Accepts (plainCmd 0xC0 inIRUQ 8 fun p => resv0 p 2 6) e p s → hasStream s p = true →
      exec (.ingStatus e p) s = .next (reply (served s e) e 0
        (beBytes 8 (s.stream (be p 0 2)).cursor ++
          [BitVec.ofNat 8 (if (s.stream (be p 0 2)).stalled = true then 2
            else if (s.stream (be p 0 2)).cookie ≠ 0 ∧ (s.stream (be p 0 2)).reads ≠ [] then 1 else 0), 0, 0, 0] ++
          beBytes 4 (s.stream (be p 0 2)).landed.length))) ∧
    (Accepts (plainCmd 0xC1 inR 16 fun p => resv0 p 2 6) e p s →
      (s.inReset 5 = true → exec (.ingSeek e p) s = .next (reply (served s e) e 1 [])) ∧
      (s.inReset 5 = false → hasStream s p = true → ∃ t, exec (.ingSeek e p) s = .next t ∧ (t.stream (be p 0 2)).cursor = be p 8 8 ∧ (t.stream (be p 0 2)).noted = be p 8 8 ∧
        (t.stream (be p 0 2)).stalled = false ∧ (t.stream (be p 0 2)).landed = [] ∧ t.mem = s.mem)) ∧
    (Accepts (plainCmd 0xC2 inIR 32 fun p => decide (be p 0 2 < 2048) && resv0 p 20 4) e p s →
      (s.inReset 5 = true → exec (.ingEndpoint e p) s = .next (reply (served s e) e 1 [])) ∧
      (s.inReset 5 = false → (s.run.plan = none ∨ hasStream s p = true) → ∃ t, exec (.ingEndpoint e p) s = .next t ∧ (t.stream (be p 0 2)).sport = be p 2 2 ∧
        (t.stream (be p 0 2)).saddr = BitVec.ofNat 128 (be p 4 16) ∧ (t.stream (be p 0 2)).cookie = BitVec.ofNat 64 (be p 24 8) ∧
        (t.stream (be p 0 2)).given = true ∧ t.mem = s.mem)))

/-- Opcodes 0x01 to 0x1C of R144: each op's row (opcode, latency) and completion. Its results are those of the op's
function of the operands, of which the statements about vector results speak. Opcodes of R146, R147 and R150: rows and
completion. Opcodes of R152 to R158: rows and completion. OSMERGE is gated by PRED; the others are masked by it. -/
def Obligations.VectorOpsComplete : Prop :=
  (VectorCompletes (fun c ve => .vAdd c ve) 0x01 4 false vAddOut ∧
  VectorCompletes (fun c ve => .vSub c ve) 0x02 4 false vSubOut ∧
  VectorCompletes (fun c ve => .vMul c ve) 0x03 4 false vMulOut ∧
  VectorCompletes (fun c ve => .vFma c ve) 0x04 5 false vFmaOut ∧
  VectorCompletes (fun c ve => .vMin c ve) 0x05 4 false vMinOut ∧
  VectorCompletes (fun c ve => .vMax c ve) 0x06 4 false vMaxOut ∧
  VectorCompletes (fun c ve => .vAbs c ve) 0x07 4 false vAbsOut ∧
  VectorCompletes (fun c ve => .vNeg c ve) 0x08 4 false vNegOut ∧
  VectorCompletes (fun c ve => .vAdds c ve) 0x09 4 false vAddsOut ∧
  VectorCompletes (fun c ve => .vMuls c ve) 0x0A 4 false vMulsOut ∧
  VectorCompletes (fun c ve => .vDiv c ve) 0x0B 12 false vDivOut ∧
  VectorCompletes (fun c ve => .vSqrt c ve) 0x0C 12 false vSqrtOut ∧
  VectorCompletes (fun c ve => .vRcp c ve) 0x0D 12 false vRcpOut ∧
  VectorCompletes (fun c ve => .vRsqrt c ve) 0x0E 12 false vRsqrtOut ∧
  VectorCompletes (fun c ve => .vExp c ve) 0x0F 14 false (vFunOut 0x0F 2 expNum) ∧
  VectorCompletes (fun c ve => .vLog c ve) 0x10 14 false (vFunOut 0x10 2 lnNum) ∧
  VectorCompletes (fun c ve => .vTanh c ve) 0x11 14 false (vFunOut 0x11 2 tanhNum) ∧
  VectorCompletes (fun c ve => .vSigmoid c ve) 0x12 14 false (vFunOut 0x12 2 sigmoidNum) ∧
  VectorCompletes (fun c ve => .vGelu c ve) 0x13 14 false (vFunOut 0x13 2 geluNum) ∧
  VectorCompletes (fun c ve => .vSilu c ve) 0x14 14 false (vFunOut 0x14 2 siluNum) ∧
  VectorCompletes (fun c ve => .vRelu c ve) 0x15 4 false vReluOut ∧
  VectorCompletes (fun c ve => .vAnd c ve) 0x16 4 false vAndOut ∧
  VectorCompletes (fun c ve => .vOr c ve) 0x17 4 false vOrOut ∧
  VectorCompletes (fun c ve => .vXor c ve) 0x18 4 false vXorOut ∧
  VectorCompletes (fun c ve => .vShl c ve) 0x19 4 false vShlOut ∧
  VectorCompletes (fun c ve => .vShr c ve) 0x1A 4 false vShrOut ∧
  VectorCompletes (fun c ve => .vSra c ve) 0x1B 4 false vSraOut ∧
  VectorCompletes (fun c ve => .vPopc c ve) 0x1C 4 false vPopcOut) ∧
  (VectorCompletes (fun c ve => .vCmplt c ve) 0x20 3 false (vCmpOut 0) ∧
  VectorCompletes (fun c ve => .vCmple c ve) 0x21 3 false (vCmpOut 1) ∧
  VectorCompletes (fun c ve => .vCmpeq c ve) 0x22 3 false (vCmpOut 2) ∧
  VectorCompletes (fun c ve => .vCmpne c ve) 0x23 3 false (vCmpOut 3) ∧
  VectorCompletes (fun c ve => .vSel c ve) 0x24 4 false vSelOut ∧
  VectorCompletes (fun c ve => .vPand c ve) 0x25 3 false vPandOut ∧
  VectorCompletes (fun c ve => .vPor c ve) 0x26 3 false vPorOut ∧
  VectorCompletes (fun c ve => .vPxor c ve) 0x27 3 false vPxorOut ∧
  VectorCompletes (fun c ve => .vPnot c ve) 0x28 3 false vPnotOut ∧
  VectorCompletes (fun c ve => .vIsnan c ve) 0x29 3 false vIsnanOut ∧
  VectorCompletes (fun c ve => .vPfirst c ve) 0x2A 3 false vPfirstOut ∧
  VectorCompletes (fun c ve => .vPtail c ve) 0x2B 3 false vPtailOut ∧
  VectorCompletes (fun c ve => .vCvt c ve) 0x30 5 false vCvtOut ∧
  VectorCompletes (fun c ve => .vQcvt c ve) 0x31 8 false vQcvtOut ∧
  VectorCompletes (fun c ve => .vAmax c ve) 0x32 8 false vAmaxOut ∧
  VectorCompletes (fun c ve => .vMov c ve) 0x70 4 false vMovOut ∧
  VectorCompletes (fun c ve => .vBcast c ve) 0x71 4 false vBcastOut ∧
  VectorCompletes (fun c ve => .vMovsv c ve) 0x72 4 false vMovsvOut ∧
  VectorCompletes (fun c ve => .vMovvs c ve) 0x73 4 false vMovvsOut ∧
  VectorCompletes (fun c ve => .vRot c ve) 0x74 4 false vRotOut ∧
  VectorCompletes (fun c ve => .vPerm c ve) 0x75 4 false vPermOut ∧
  VectorCompletes (fun c ve => .vIota c ve) 0x76 4 false vIotaOut ∧
  VectorCompletes (fun c ve => .vCompress c ve) 0x77 8 false vCompressOut) ∧
  (VectorCompletes (fun c ve => .vRsum c ve) 0x40 12 false vRsumOut ∧
  VectorCompletes (fun c ve => .vRsumsq c ve) 0x41 12 false vRsumsqOut ∧
  VectorCompletes (fun c ve => .vRprod c ve) 0x42 12 false vRprodOut ∧
  VectorCompletes (fun c ve => .vRmax c ve) 0x43 12 false vRmaxOut ∧
  VectorCompletes (fun c ve => .vRmin c ve) 0x44 12 false vRminOut ∧
  VectorCompletes (fun c ve => .vRargmax c ve) 0x45 12 false (vRargOut true) ∧
  VectorCompletes (fun c ve => .vRargmin c ve) 0x46 12 false (vRargOut false) ∧
  VectorCompletes (fun c ve => .vScansum c ve) 0x50 14 false vScansumOut ∧
  VectorCompletes (fun c ve => .vScansumx c ve) 0x51 14 false vScansumxOut ∧
  VectorCompletes (fun c ve => .vScanmax c ve) 0x52 14 false vScanmaxOut ∧
  VectorCompletes (fun c ve => .vScanmin c ve) 0x53 14 false vScanminOut ∧
  VectorCompletes (fun c ve => .vSoftmax c ve) 0x60 40 false vSoftmaxOut ∧
  VectorCompletes (fun c ve => .vOsstep c ve) 0x61 30 false vOsstepOut ∧
  VectorCompletes (fun c ve => .vOsmerge c ve) 0x62 20 true vOsmergeOut ∧
  VectorCompletes (fun c ve => .vOsnorm c ve) 0x63 14 false vOsnormOut)

/-- The matrix rows of R78: opcode and completion in one repeat. -/
def Obligations.MatrixOpsComplete : Prop :=
  MatrixCompletes (fun c a => .mWload c a) 0x01 (fun c a s w b => loadPart s c a w b) ∧
  MatrixCompletes (fun c a => .mMac c a) 0x10 (accumulateStep 0x10) ∧
  MatrixCompletes (fun c a => .mL1 c a) 0x11 (accumulateStep 0x11) ∧
  MatrixCompletes (fun c a => .mSqd c a) 0x12 (accumulateStep 0x12) ∧
  MatrixCompletes (fun c a => .mMinplus c a) 0x13 (accumulateStep 0x13) ∧
  MatrixCompletes (fun c a => .mMaxplus c a) 0x14 (accumulateStep 0x14) ∧
  MatrixCompletes (fun c a => .mHam c a) 0x15 (accumulateStep 0x15) ∧
  MatrixCompletes (fun c a => .mCmpc c a) 0x16 (accumulateStep 0x16) ∧
  MatrixCompletes (fun c a => .mDrain c a) 0x20 drainStep ∧
  MatrixCompletes (fun c a => .mInit c a) 0x21 initStep

/-- INIT (R115): the entry after it, and its frame. -/
def Obligations.InitSetsIdentities : Prop :=
  ∀ (c a : Nat) (s : State) (w : Nat) (b : Bun), c < 480 → a < 4 → loadPart s c a w b = s →
    (∀ k, (s.core c).bun = some k → k.spoiled = false) → bits w 80 78 ≤ 2 →
    let e := (bits w 17 12 + (if bit w 18 then b.rep else 0)) % 64
    let t := initStep c a s w b
    (∀ j < 32, (entryOf (t.core c) c a e).vals[j]? =
      some (if bits w 80 78 = 1 then 0x7F800000 else if bits w 80 78 = 2 then 0xFF800000 else (0 : W32))) ∧
    (entryOf (t.core c) c a e).cls = bits w 80 78 ∧ (entryOf (t.core c) c a e).empty = true ∧
    (∀ e', e' ≠ e → entryOf (t.core c) c a e' = entryOf (s.core c) c a e') ∧
    (∀ a', a' ≠ a → (t.core c).array a' = (s.core c).array a') ∧ (t.core c).rf = (s.core c).rf ∧
    (∀ k, k ≠ c → t.core k = s.core k) ∧ t.mem = s.mem ∧ t.glb = s.glb

/-- The load rows of R84 and R85: address, latency, bytes and destination. What FEEDV reads past the end of its
register is free (log 20). -/
def Obligations.LoadOpsComplete : Prop :=
  LoadCompletes .ldLdv 1 6 1 (fun x a _ _ => hazCache x (a / 64 * 64) 512)
      (fun u _ c a w b => .vreg (512 * loadReg w b 512) ((cacheBytes u c (a / 64 * 64) 512).map fun v => (v, 0xFF))) ∧
  LoadCompletes .ldStv 2 2 0 (fun x _ w b => hazV x (512 * loadReg w b 512) 512)
      (fun _ x c a w b => .cache (a / 64 * 64) (vreg x c (loadReg w b 512))) ∧
  LoadCompletes .ldLds 3 6 1 (fun x a _ _ => hazCache x (a / 8 * 8) 8)
      (fun u _ c a w _ => .sreg (bits w 63 58) (BitVec.ofNat 64 (leNat (cacheBytes u c (a / 8 * 8) 8))) (BitVec.allOnes 64)) ∧
  LoadCompletes .ldSts 4 2 0 (fun x _ w _ => hazS x (bits w 63 58))
      (fun _ x c a w _ => .cache (a / 8 * 8) (leBytes 8 (readS x c (bits w 63 58)).toNat)) ∧
  LoadCompletes .ldLdp 5 6 1 (fun x a _ _ => hazCache x (a / 64 * 64) 64)
      (fun u _ c a w b =>
        .preg (loadReg w b 16) (BitVec.ofNat 512 (leNat (cacheBytes u c (a / 64 * 64) 64))) (BitVec.allOnes 512)) ∧
  LoadCompletes .ldStp 6 2 0 (fun x _ w b => hazP x (loadReg w b 16))
      (fun _ x c a w b => .cache (a / 64 * 64) (leBytes 64 (readP x c (loadReg w b 16)).toNat)) ∧
  LoadCompletes .ldFeed 7 6 0 (fun x a w _ => hazCache x (a / 64 * 64) (sliceBytes (bits w 66 64)))
      (fun u _ c a w _ => .feed (cacheBytes u c (a / 64 * 64) (sliceBytes (bits w 66 64)))) ∧
  (∀ (c : Nat) (s r : State) (b : Bun), SlotActs s c 6 8 r b → predicated b 6 →
    let w := slotWord b.raw 6
    let u := spoil r c (hazX (r.core c) (bits w 16 12) ++ hazV (r.core c) (512 * loadReg w b 512) 512)
    exec (.ldFeedv c) s = .next (endSlot
      (launch u c 6 0 (.feed (feedvBytes (u.core c) c u.fresh w b))) c 6).ticket)

/-- Scalar rows of R87: each result as R87 gives it, its latency and destination. -/
def Obligations.ScalarOpsComplete : Prop :=
  ControlCompletes .ctlSli 0x08 (fun w => []) (scalarResult 1 fun x c w => (BitVec.ofNat 32 (bits w 61 30)).signExtend 64) ∧
  ControlCompletes .ctlSadd 0x0A (fun w => [bits w 23 18, bits w 29 24]) (scalarResult 1 fun x c w => readS x c (bits w 23 18) + readS x c (bits w 29 24)) ∧
  ControlCompletes .ctlSsub 0x0B (fun w => [bits w 23 18, bits w 29 24]) (scalarResult 1 fun x c w => readS x c (bits w 23 18) - readS x c (bits w 29 24)) ∧
  ControlCompletes .ctlSand 0x0C (fun w => [bits w 23 18, bits w 29 24]) (scalarResult 1 fun x c w => readS x c (bits w 23 18) &&& readS x c (bits w 29 24)) ∧
  ControlCompletes .ctlSor 0x0D (fun w => [bits w 23 18, bits w 29 24]) (scalarResult 1 fun x c w => readS x c (bits w 23 18) ||| readS x c (bits w 29 24)) ∧
  ControlCompletes .ctlSxor 0x0E (fun w => [bits w 23 18, bits w 29 24]) (scalarResult 1 fun x c w => readS x c (bits w 23 18) ^^^ readS x c (bits w 29 24)) ∧
  ControlCompletes .ctlSshl 0x0F (fun w => [bits w 23 18, bits w 29 24]) (scalarResult 1 fun x c w => readS x c (bits w 23 18) <<< ((readS x c (bits w 29 24)).toNat % 64)) ∧
  ControlCompletes .ctlSshr 0x10 (fun w => [bits w 23 18, bits w 29 24]) (scalarResult 1 fun x c w => readS x c (bits w 23 18) >>> ((readS x c (bits w 29 24)).toNat % 64)) ∧
  ControlCompletes .ctlSsra 0x11 (fun w => [bits w 23 18, bits w 29 24]) (scalarResult 1 fun x c w => (readS x c (bits w 23 18)).sshiftRight ((readS x c (bits w 29 24)).toNat % 64)) ∧
  ControlCompletes .ctlSmul 0x12 (fun w => [bits w 23 18, bits w 29 24]) (scalarResult 4 fun x c w => readS x c (bits w 23 18) * readS x c (bits w 29 24)) ∧
  ControlCompletes .ctlSaddi 0x13 (fun w => [bits w 23 18]) (scalarResult 1 fun x c w => readS x c (bits w 23 18) + (BitVec.ofNat 32 (bits w 61 30)).signExtend 64) ∧
  ControlCompletes .ctlTokrd 0x31 (fun w => []) (scalarResult 1 fun x c w => BitVec.ofNat 64 (readT x (bits w 61 30 % 64) - arrivals x (bits w 61 30 % 64))) ∧
  ControlCompletes .ctlTick 0x3A (fun _ => []) (fun c s x w => scalarResult 1 (fun _ _ _ => BitVec.ofNat 64 s.pwr.tick) c s x w) ∧
  ControlCompletes .ctlXget 0x22 (fun _ => []) (fun c s x w =>
      let s := spoil s c (hazX x (bits w 22 18))
      launch s c 1 1 (.sreg (bits w 17 12) ((readX (s.core c) c (bits w 22 18)).setWidth 64) (BitVec.allOnes 64))) ∧
  ControlCompletes .ctlSlih 0x09 (fun _ => []) (fun c s _ w =>
      launch s c 1 1 (.sreg (bits w 17 12) (BitVec.ofNat 64 (bits w 61 30 * 2 ^ 32)) 0xFFFFFFFF00000000)) ∧
  ControlCompletes .ctlCmpeq 0x18 (fun w => [bits w 23 18, bits w 29 24]) (fun c s x w =>
      launch s c 1 1 (.preg (bits w 70 67)
        (if readS x c (bits w 23 18) = readS x c (bits w 29 24) then BitVec.allOnes 512 else 0) (BitVec.allOnes 512))) ∧
  ControlCompletes .ctlCmplt 0x19 (fun w => [bits w 23 18, bits w 29 24]) (fun c s x w =>
      launch s c 1 1 (.preg (bits w 70 67)
        (if (readS x c (bits w 23 18)).toInt < (readS x c (bits w 29 24)).toInt then BitVec.allOnes 512 else 0) (BitVec.allOnes 512))) ∧
  ControlCompletes .ctlCmpltu 0x1A (fun w => [bits w 23 18, bits w 29 24]) (fun c s x w =>
      launch s c 1 1 (.preg (bits w 70 67)
        (if (readS x c (bits w 23 18)).toNat < (readS x c (bits w 29 24)).toNat then BitVec.allOnes 512 else 0) (BitVec.allOnes 512)))

/-- The remaining rows of R87, with R90, R95, R96, R100 and R166. -/
def Obligations.ControlOpsComplete : Prop :=
  ControlCompletes .ctlEnd 0x01 (fun _ => []) (fun c s _ _ => modBun s c fun b => { b with final := true }) ∧
  ControlCompletes .ctlLoop 0x02 (fun w => [bits w 23 18]) (fun c s x w =>
      modBun s c fun b => { b with loop := some (bits w 61 30 % 65536, (readS x c (bits w 23 18)).toNat % 2 ^ 32) }) ∧
  ControlCompletes .ctlBr 0x03 (fun _ => []) (fun c s x w =>
      modBun s c fun b => { b with branch := some ((((x.pc : Int) + signedOf 32 (bits w 61 30)).emod 16384).toNat) }) ∧
  ControlCompletes .ctlFence 0x39 (fun _ => []) (fun c s _ _ => modBun s c fun b => { b with fence := true }) ∧
  ControlCompletes .ctlXset 0x20 (fun w => [bits w 23 18]) (fun c s x w =>
      launch s c 1 1 (.xreg (bits w 66 62) ((readS x c (bits w 23 18)).setWidth 32))) ∧
  ControlCompletes .ctlXaddi 0x21 (fun _ => []) (fun c s x w =>
      let s := spoil s c (hazX x (bits w 66 62))
      launch s c 1 1 (.xreg (bits w 66 62) (readX (s.core c) c (bits w 66 62) + BitVec.ofNat 32 (bits w 61 30)))) ∧
  ControlCompletes .ctlSettile 0x28 (fun w => [bits w 23 18]) (fun c s x w =>
      launch s c 1 0 (.tile ((readS x c (bits w 23 18)).toNat % 2 ^ 31))) ∧
  ControlCompletes .ctlSetkq 0x29 (fun w => [bits w 23 18]) (fun c s x w =>
      launch s c 1 0 (.kq ((readS x c (bits w 23 18)).toNat % 2 ^ 19))) ∧
  ControlCompletes .ctlSignal 0x30 (fun w => [bits w 23 18]) (fun c s x w =>
      addToken s ((readS x c (bits w 23 18)).toNat % 512) (bits w 61 30 % 64)) ∧
  ControlCompletes .ctlTokset 0x32 (fun w => [bits w 23 18]) (fun c s x w =>
      setToken s c x (bits w 61 30 % 64) ((readS x c (bits w 23 18)).toNat % 65536)) ∧
  (∀ (c tok v : Nat) (s : State), (s.core c).spoiled = false →
    (v + arrivals (s.core c) tok ≤ 65535 →
      setToken s c (s.core c) tok v = (s.setCore c (writeT (s.core c) tok (v + arrivals (s.core c) tok))).ticket) ∧
    (65535 < v + arrivals (s.core c) tok →
      setToken s c (s.core c) tok v =
        corePlanFault (s.setCore c (writeT (s.core c) tok 65535)).ticket c 3 (s.core c).pc tok)) ∧
  ControlCompletes .ctlKick 0x38 (fun w => [bits w 23 18]) (fun c s x w =>
      postList s (c / 12) (bits w 61 30 % 16) (readS x c (bits w 23 18)).toNat)

/-- R92 (WAIT_TOKEN), R78, R85 and R91 (NOP), R96 (an arrival that takes no counter past 65,535), R97 (the time-out).
R124 and R193 (an arriving record), R168 (engine tokens and time-out; whose limit holds for an engine is log 21). -/
def Obligations.TokenEventsComplete : Prop :=
  ((∀ (c : Nat) (s : State), c < 480 → coreRuns s c = true → (s.core c).bun = none → s.glb.state ≠ .quiesced →
    mustWait (s.core c) (fetch s c) = true →
    (waitCount (fetch s c) ≤ readT (s.core c) (waitToken (fetch s c)) →
      ∃ x, readT x (waitToken (fetch s c)) = readT (s.core c) (waitToken (fetch s c)) - waitCount (fetch s c) ∧
        (∀ k, k ≠ waitToken (fetch s c) → readT x k = readT (s.core c) k) ∧ x.waited = true ∧
        ((readP (s.core c) c (bpredOf (fetch s c))).getLsbD 0 = false → exec (.waitToken c) s = .next (skipBundle (s.setCore c x) c)) ∧
        ((readP (s.core c) c (bpredOf (fetch s c))).getLsbD 0 = true →
          (∀ r, tryIssue s c (fetch s c) = .ready r → exec (.waitToken c) s = .next (beginBundle (s.setCore c x) c (fetch s c))) ∧
          (∀ r, tryIssue s c (fetch s c) = .faulted r → exec (.waitToken c) s = .next r) ∧
          (tryIssue s c (fetch s c) = .stay →
            exec (.waitToken c) s = .next (s.setCore c { s.core c with waiting := none })))) ∧
    (readT (s.core c) (waitToken (fetch s c)) < waitCount (fetch s c) → (s.core c).waiting = none →
      exec (.waitToken c) s = .next (s.setCore c { s.core c with waiting := some s.now }))) ∧
  (∀ (c slot : Nat) (s r : State) (b : Bun), slot < 8 → SlotActs s c slot 0 r b →
    exec (.slotNop c slot) s = .next (endSlot
      (if b.preds.testBit slot = true then
        (if slot < 4 then loadPart r c slot (slotWord b.raw slot) b else r)
       else r) c slot)) ∧
  (∀ (c tok : Nat) (s : State), c < 480 → tok < 64 → s.inReset 1 = false →
    (tokenPending (s.core c) 0x32 tok = true → exec (.tokenArrival c tok) s = .next (s.setCore c (noteArrival (s.core c) tok))) ∧
    (tokenPending (s.core c) 0x32 tok = false → readT (s.core c) tok < 65535 → ∃ t, exec (.tokenArrival c tok) s = .next t ∧ readT (t.core c) tok = readT (s.core c) tok + 1 ∧
      (∀ k, k ≠ tok → readT (t.core c) k = readT (s.core c) k) ∧ (∀ k, k ≠ c → t.core k = s.core k) ∧
      t = { s with cores := t.cores })) ∧
  (∀ (c : Nat) (s : State) (since : Nat), c < 480 → coreRuns s c = true → s.glb.state = .running →
    (s.core c).waiting = some since → (s.core c).waitLimit ≠ 0 → (s.core c).waitLimit < waitClock s - since →
    exec (.waitTimeout c) s = .next (corePlanFault s c 4 (s.core c).pc (waitToken (fetch s c))))) ∧
  ((∀ (g : Nat) (record : List Byte) (s : State) (m : W64), g < 40 → s.inReset 1 = false →
    ((s.cluster g).recvMap.find? fun m =>
      bits m.toNat 15 0 == bits (leNat (record.take 8)) 15 0 && bits m.toNat 23 16 == bits (leNat (record.take 8)) 23 16) = some m →
    bits m.toNat 27 24 < 12 → readT (s.core (12 * g + bits m.toNat 27 24)) (bits m.toNat 33 28) < 65535 →
    let c := 12 * g + bits m.toNat 27 24
    let slot := 64 * bits (leNat (record.take 8)) 31 30 + bits (leNat (record.take 8)) 29 24
    tokenPending (s.core c) 0x32 (bits m.toNat 33 28) = false →
    ∃ t flag, exec (.chainRecord g record) s = .next t ∧ tfind (landRecords (t.core c)).chain slot = some (flag, record) ∧ flag ≠ 1 ∧
      ((s.core c).bun = none → tfind (t.core c).chain slot = some (flag, record)) ∧
      (∀ b, (s.core c).bun = some b → (t.core c).chain = (s.core c).chain) ∧
      (tfind (landRecords (s.core c)).chain slot = none → flag = 0) ∧
      readT (t.core c) (bits m.toNat 33 28) = readT (s.core c) (bits m.toNat 33 28) + 1 ∧
      (∀ k, k ≠ slot → tfind (t.core c).chain k = tfind (s.core c).chain k) ∧ (∀ k, k ≠ c → t.core k = s.core k) ∧
      t = { s with cores := t.cores }) ∧
  (∀ (g eng tok : Nat) (s : State), g < 40 → eng < 10 → tok < 8 → s.inReset 1 = false → tget 0 (s.engine g eng).tokens tok < 65535 →
    exec (.engineTokenArrival g eng tok) s = .next (runNops g nopFuel (s.modEngine g eng fun x =>
      { x with tokens := tput x.tokens tok (tget 0 (s.engine g eng).tokens tok + 1) }))) ∧
  (∀ (g eng off since : Nat) (s : State), g < 40 → eng < 10 → engineRuns s g eng = true → headDesc s g eng = some off →
    (s.engine g eng).waiting = some since → (s.core (12 * g)).waitLimit ≠ 0 → (s.core (12 * g)).waitLimit < waitClock s - since →
    exec (.engineWaitTimeout g eng) s = .next (enginePlanFault s g eng off 6)))

/-- Every row of R174 to R193: engine, opcode, and completion of a descriptor segment by segment. That a descriptor's
operands are taken when it starts is the model's choice (log 77). -/
def Obligations.EngineOpsComplete : Prop :=
  ∀ g, g < 40 →
  (∀ eng, eng < 2 → EngineCompletes (.dmaCopy g eng) g eng 1 (copyEffect g eng)) ∧
  (∀ eng, eng < 2 → EngineCompletes (.dmaSkew g eng) g eng 2 (skewEffect g eng)) ∧
  (∀ eng, eng < 2 → EngineCompletes (.dmaFill g eng) g eng 3 (fillEffect g)) ∧
  EngineCompletes (.engGather g) g 2 1 (gatherEffect 1 g) ∧
  EngineCompletes (.engScatter g) g 2 2 (gatherEffect 2 g) ∧
  EngineCompletes (.engScatterAdd g) g 2 3 (gatherEffect 3 g) ∧
  EngineCompletes (.engTranspose g) g 3 1 (transposeEffect g) ∧
  EngineCompletes (.engLookup g) g 4 1 (lookupEffect g) ∧
  EngineCompletes (.engSort g) g 5 1 (sortEffect 1 g) ∧
  EngineCompletes (.engTopk g) g 5 2 (sortEffect 2 g) ∧
  EngineCompletes (.engSetslot g) g 6 1 (setslotEffect) ∧
  EngineCompletes (.engGen g) g 6 2 (genEffect g) ∧
  EngineCompletes (.engEncode g) g 7 1 (encodeEffect g) ∧
  EngineCompletes (.engDecode g) g 7 2 (decodeEffect g) ∧
  EngineCompletes (.engSend g) g 8 1 (sendEffect g) ∧
  EngineCompletes (.engRecvSum g) g 8 2 (recvEffect 2 g) ∧
  EngineCompletes (.engRecvMax g) g 8 3 (recvEffect 3 g) ∧
  EngineCompletes (.engRecvMin g) g 8 4 (recvEffect 4 g) ∧
  EngineCompletes (.engRecvCopy g) g 8 5 (recvEffect 5 g) ∧
  EngineCompletes (.engMapSend g) g 9 1 (mapEffect 1 g) ∧
  EngineCompletes (.engMapRecv g) g 9 2 (mapEffect 2 g)

/-- R184 (SETSLOT) and R175 (FILL, one row), with their frames. -/
def Obligations.EngineBodyEffects : Prop :=
  (∀ (g : Nat) (s : State) (d : Nat), dbits d 8 7 6 = 0 → zeroBytes d 9 11 = true → zeroBytes d 32 63 = true →
    ∃ acts, setslotEffect s d = .ok [acts] ∧
      tfind ((doSegment g 6 s acts).cluster g).rng (dbits d 8 3 0) = some (BitVec.ofNat 32 (dbits d 12 31 0), BitVec.ofNat 128 (dbits d 16 127 0)) ∧
      (∀ k, k ≠ dbits d 8 3 0 → tfind ((doSegment g 6 s acts).cluster g).rng k = tfind (s.cluster g).rng k) ∧
      (∀ k, k ≠ g → (doSegment g 6 s acts).cluster k = s.cluster k) ∧
      doSegment g 6 s acts = { s with clusters := (doSegment g 6 s acts).clusters }) ∧
  (∀ (g e : Nat) (s : State) (d : Nat) (dst : Target), e < 2 → MemoryCanonical s → dmaReserved d = true → 1 ≤ dbits d 24 31 0 →
    dbits d 24 31 0 ≤ 2 ^ 24 → dbits d 28 31 0 = 1 → targetOf s g (dword d 16) = .ok dst → dst.pos = none →
    rangeOk s g dst true dst.pa (dbits d 24 31 0) = true →
    (∀ a, dst.pa ≤ a → a < dst.pa + dbits d 24 31 0 → ∀ c o, placeOf a = .cache c o → (s.core c).active = false) →
    ∃ work t, fillEffect g s d = .ok work ∧ work.length = (dbits d 24 31 0 + 65535) / 65536 ∧ t = forEach work (doSegment g e) s ∧
      (∀ b, b < dbits d 24 31 0 → readByte t (dst.pa + b) = BitVec.ofNat 8 (dbits d 48 31 0 >>> (8 * (b % 4)))) ∧
      (∀ a, a < dst.pa ∨ dst.pa + dbits d 24 31 0 ≤ a → readByte t a = readByte s a) ∧
      (t.engine g e).rest = ((s.engine g e).rest + dbits d 24 31 0) % 4096 ∧
      (t.engine g e).units = satAdd 0xFFFFFFFF (s.engine g e).units (((s.engine g e).rest + dbits d 24 31 0) / 4096) ∧
      t.cores = s.cores ∧ t.run = s.run ∧ t.glb = s.glb)

/-- R24, R262, R263, R304 and R338 (PHASE_START), R25 and R65 (the end of REDUCE), R241 (UPDATE_DONE), R66, R277 and
R303 (STEP_RERUN). -/
def Obligations.PhasesComplete : Prop :=
  (∀ (s : State) (p : Plan), s.run.plan = some p → phasesRun s p = true →
    (usedUp s = false → exec .phaseStart s = .next s) ∧
    (usedUp s = true → s.run.phase = 7 → exec .phaseStart s = .next (startStep s p)) ∧
    (usedUp s = true → s.run.phase ≠ 7 → phaseEnded s p = true →
      (drained (sendDrains s) = true → mayEnter s = true → exec .phaseStart s = .next (switchPhase (sendDrains s) p)) ∧
      (drained (sendDrains s) = false ∨ mayEnter s = false → exec .phaseStart s = .next (sendDrains s))) ∧
    (usedUp s = true → s.run.phase < 2 → phaseEnded s p = true → drained (sendDrains s) = true → mayEnter s = true →
      ∃ t, exec .phaseStart s = .next t ∧ t.run.phase = s.run.phase + 1 ∧ t.run.step = s.run.step ∧
        (s.run.phase = 1 → (t.glb.lsExp, t.glb.lsClean, t.run.skip) = scaleDecision s.glb))) ∧
  (∀ (n : Nat) (s : State), n < 20 → unitRuns s n = true →
    let u := sendDigests (runUnit s n) n
    exec (.updateDone n) s = .next (forEach (replicasIn u n) (fun s r => decideShard (sendVerdict s r) r) u)) ∧
  (∀ (s : State) (p : Plan), s.run.plan = some p → rerunReady s = true → s.run.phase ≠ 6 →
    runLost (restoreLost (makeSwaps s)) = false → (restoreLost (makeSwaps s)).spr.fetches = [] →
    (restoreLost (makeSwaps s)).inReset 3 = false →
    let u := restoreLost (makeSwaps s)
    let r := restoreStart (clearAttempt (if u.run.asReset = true then resetCompute u else u))
    exec .stepRerun s = .next (acceptHeld (startAttempt (raiseOpen
      { r with run := { r.run with attempt := r.run.attempt + 1 }, glb := { r.glb with reruns := satInc 0xFFFF r.glb.reruns } } 7) p))) ∧
  (∀ (s : State) (p : Plan), s.run.plan = some p → rerunReady s = true → s.run.phase = 6 →
    runLost (restoreLost s) = false → (restoreLost s).spr.fetches = [] → (restoreLost s).inReset 3 = false →
    let u := restoreLost s
    let r := restoreStart (clearAttempt (if u.run.asReset = true then resetCompute u else u))
    exec .stepRerun s = .next (acceptHeld (enterPhase
      { r with run := { r.run with attempt := r.run.attempt + 1, tainted := false, abandoned := false, asReset := false } } p 6)))

/-- R432 and R433. Which lane group of the stack interface a failing copy marks is free. -/
def Obligations.ReplicaCommandsComplete : Prop :=
  (∀ (step shard flag : Nat) (pos : Nat × Nat × Nat) (digest : List Byte) (s : State) (p : Plan) (r : ReplicaEntry),
    s.run.plan = some p → (s.spr.replicasUse.find? fun r => r.shard == shard) = some r → runInProgress s = true →
    let d : PeerDigest := { step := step, shard := shard, pos := posIndex p pos, flag := flag, digest := digest }
    let others := s.spr.digests.filter fun x => !decide (x.step = step ∧ x.shard = shard ∧ x.pos = posIndex p pos ∧ x.flag = flag)
    let v := { s with spr := { s.spr with digests := others ++ [d] } }
    let u := if flag = 0 ∧ step = s.run.step then sendVerdict v r else v
    exec (.digestTransfer step shard pos flag digest) s = .next (if u.run.abandoned = true then u else tryCommit (decideShard u r))) ∧
  (∀ (stack shard : Nat) (image : ShardImage) (s : State) (r : ReplicaEntry) (all : List (Nat × List Byte)) (d : List Byte) (k : Nat) (und : Bool),
    stack < 20 → (s.spr.replicasUse.find? fun r => r.shard == shard) = some r → shard ∈ s.spr.copiesDue →
    shardStack s shard = some stack → s.run.abandoned = false → allDigests s r = some all → agreed s r all = some (d, k, und) →
    let u := applyShard s stack shard image
    let got := shardDigest u stack (programOf u stack) (!bankOf u stack) shard
    let w := u.modUnit stack fun x => { x with digests := tput x.digests shard got }
    let v := { w with spr := { w.spr with copies := satInc 0xFF w.spr.copies, copiesDue := w.spr.copiesDue.filter (· != shard) } }
    (got = d → exec (.shardCopy stack shard image) s =
      .next (tryCommit { v with spr := { v.spr with settled := v.spr.settled ++ [shard] } })) ∧
    (got ≠ d → exec (.shardCopy stack shard image) s =
      .next (taint (markLasting (v.ticket.modStack stack fun x => { x with lost := satInc 0xFFFFFFFF x.lost })
        (.laneGroup (32 + stack) (Config.freeByte v.fresh 0).toNat)))))

/-- R426 to R431, with R243 for the restore and R325 and R328. The model's readings: an answer without groups (log
76), the contents of the messages and the offer that says that the holder's regions are too small (log 83). -/
def Obligations.ReflectionCommandsComplete : Prop :=
  (∀ (o : ReflectOffer) (s : State), o.port < 48 → s.run.plan.isSome = true →
    let fromBuddy : Prop := s.spr.buddyUse ≠ 0 ∧ o.serial = s.spr.buddyUse
    let fromSender : Prop := s.spr.heldUse ≠ 0 ∧ o.serial = s.spr.heldUse
    ((fromSender ∧ regionsFit s o.sizes = false) ∨ (fromBuddy ∧ o.fits = false) →
      exec (.reflectOffer o) s = .next (endRun (raiseOpen s 1))) ∧
    ((fromSender → regionsFit s o.sizes = true) → (fromBuddy → o.fits = true) →
      (fromBuddy → offered s = true →
        let u := { s with spr := { s.spr with reflectGen := settleGen (heldGens s) o.gens } }
        (reflecting s = true → s.spr.reflect = .opening →
          exec (.reflectOffer o) s = .next (sendReflection u (allWhole (!holderCurrent s o)))) ∧
        (reflecting s = true → s.spr.reflect = .unsure → exec (.reflectOffer o) s = .next (sendReflection u (byTags u o))) ∧
        (reflecting s = false → exec (.reflectOffer o) s = .next
          { u with spr := { u.spr with reflect := if holderCurrent s o = true then .difference else .full } })) ∧
      (fromBuddy → ¬fromSender → offered s = false →
        exec (.reflectOffer o) s = .next { s with spr := { s.spr with
          reflectGen := settleGen (heldGens s) o.gens, renew := true
          reflect := if reflecting s = true then s.spr.reflect
            else if holderCurrent s o = true then .difference else .full } }) ∧
      (fromSender → ¬(fromBuddy ∧ offered s = true) →
        exec (.reflectOffer o) s = .next (sendOffer
          (if s.spr.buddyUse = o.serial then settleReflect (openAsHolder s o) o else openAsHolder s o) o.serial)))) ∧
  (∀ (d : ReflectPiece) (s : State) (r : Region), d.stack < 20 → reflectionRegion s d.stack = some r →
    (∀ bs, decodeBlock s (readHead (d.block.take 16)) d.block.length (d.block.drop 16) = .ok bs →
      heldAddr r d.off + bs.length ≤ r.base + r.length → MemoryCanonical s →
      (staleDifference s r d = true → exec (.reflectionData d) s = .next (countPiece (eraseShard s d) r d)) ∧
      (staleDifference s r d = false → ∃ u, exec (.reflectionData d) s = .next (countPiece u r d) ∧
        readBytes u (heldAddr r d.off) bs.length =
          (if d.diff = true then (bs.zip (readBytes s (heldAddr r d.off) bs.length)).map fun x => x.1 ^^^ x.2 else bs) ∧
        (∀ a, a < heldAddr r d.off ∨ heldAddr r d.off + bs.length ≤ a → readByte u a = readByte s a) ∧ u = { s with mem := u.mem })) ∧
    (∀ e, decodeBlock s (readHead (d.block.take 16)) d.block.length (d.block.drop 16) = .error e →
      exec (.reflectionData d) s = .next
        (countPiece (eraseShard (countErasure s 2 d.stack (readHead (d.block.take 16)) e) d) r d))) ∧
  (∀ (d : ReflectPiece) (s : State) (r : Region),
    let got := s.spr.received.filter (· != (d.stack, d.shard, d.off)) ++ [(d.stack, d.shard, d.off)]
    let mine := got.filter fun x => x.1 == d.stack && x.2.1 == d.shard
    let whole := s.spr.whole.filter (· != (d.stack, d.shard)) ++ [(d.stack, d.shard)]
    let w := { s with spr := { s.spr with
      received := got.filter fun x => !(x.1 == d.stack && x.2.1 == d.shard), whole := whole } }
    let t := if d.shard = recordShard ∨ s.spr.erased.contains (d.stack, d.shard, d.step) = true then w else writeTag w r d.shard d.step
    (mine.length < d.blocks → countPiece s r d = { s with spr := { s.spr with received := got } }) ∧
    (d.blocks ≤ mine.length → whole.length < d.shards → countPiece s r d = t) ∧
    (d.blocks ≤ mine.length → d.shards ≤ whole.length → countPiece s r d = endReflection t d.step)) ∧
  (∀ (s : State) (step : Nat),
    (endReflection s step).spr.erased = [] ∧ (endReflection s step).spr.received = [] ∧ (endReflection s step).spr.whole = [] ∧
    ((∀ x ∈ s.spr.erased, x.2.2 ≠ step) → (endReflection s step).spr.held = step) ∧
    (∀ x ∈ s.spr.erased, x.2.2 = step → (endReflection s step).spr.held = s.spr.held ∧ (endReflection s step).mem = s.mem)) ∧
  (∀ (s : State), runInProgress s = true → s.run.phase = 4 → s.run.commitDone = true →
    let u := { s with run := { s.run with reflectDone := true }, spr := { s.spr with reflected := s.run.step, reflect := .difference } }
    (s.spr.repairAfterReflect = none → exec (.reflectAck ⟨s.run.step, []⟩) s = .next u) ∧
    (∀ res, s.spr.repairAfterReflect = some res → exec (.reflectAck ⟨s.run.step, []⟩) s = .next (enterRepair u res)) ∧
    (∀ missing, missing ≠ [] → exec (.reflectAck ⟨s.run.step, missing⟩) s = .next (resendShards s missing))) ∧
  (∀ (port stack tensor first count : Nat) (s : State) (r : Region) (t : TensorDesc), port < 48 → stack < 20 →
    reflectionRegion s stack = some r → (programOf s stack)[tensor]? = some t →
    exec (.fetchRequest port stack tensor first count) s = .next (sendMailbox s 5 (backTo s port)
      ([BitVec.ofNat 8 stack] ++ leBytes 4 tensor ++ leBytes 4 first ++ leBytes 8 (tagOf s r t.shard) ++
        (if heldMagic s r = true ∧ 4096 * first < t.n then heldGroups s r (programOf s stack) tensor t first count else [])))) ∧
  (∀ (stack tensor first : Nat) (image : ShardImage) (s : State) (d : TensorDesc), stack < 20 →
    (stack, tensor, first) ∈ s.spr.fetches → (programOf s stack)[tensor]? = some d → MemoryCanonical s →
    (image.masters = [] ∨ s.run.committed ≠ some image.tag → exec (.fetchData stack tensor first image) s = .next (loseHolder s)) ∧
    (image.masters ≠ [] → s.run.committed = some image.tag → ∃ t, exec (.fetchData stack tensor first image) s = .next t ∧
      t.spr = { s.spr with fetches := s.spr.fetches.filter fun x => x != (stack, tensor, first) } ∧
      readBytes t (masterAddr stack d (bankOf s stack) (4096 * first)) (image.masters.take (4 * (d.n - 4096 * first))).length =
        image.masters.take (4 * (d.n - 4096 * first)) ∧
      (∀ a, a < stateBase stack d ∨ stateBase stack d + 15 * d.n + 12 * d.rows ≤ a → readByte t a = readByte s a) ∧
      ((∀ x ∈ t.spr.fetches, x.1 ≠ stack) → (t.unit stack).restoring = false) ∧
      t = { s with mem := t.mem, spr := t.spr, upd := t.upd }))

/-- R135 and R210 to R212 (mismatches), R214 (scrubbing), R221 (die copies), R415 (the shadow core's test). That a
scrub with EN cleared ends its unit as one of 256 words, the 1 KiB of one die, is the model's reading of R224 (log
76). -/
def Obligations.FaultEventsComplete : Prop :=
  (∀ (m : Mismatch) (s : State), wellFormed (.parityMismatch m) = true → working s = true → onMemoryPath m.res = true →
    (∀ c a j, m.res = .column c a j → exec (.parityMismatch m) s = .next (taintReset (countEvent (s.modCore c fun x =>
      { x with arrays := tmod .reset x.arrays a fun r => { r with parEvents := satInc 0xFFFF r.parEvents } }) m.res))) ∧
    ((∀ c a j, m.res ≠ .column c a j) → m.failures < 3 →
      exec (.parityMismatch m) s = .next (countEvent (countReplay (stallReplay s m) (mismatchRes s m)) (mismatchRes s m))) ∧
    ((∀ c a j, m.res ≠ .column c a j) → m.failures = 3 →
      exec (.parityMismatch m) s = .next (taintReset
        (markLasting (recordLoss (stallReplay s m) { m with res := mismatchRes s m }) (mismatchRes s m))))) ∧
  (∀ (n failures : Nat) (dense : Bool) (s : State), n < 20 → working s = true → s.pwr.low = 0 →
    s.pwr.dip = false → stackServes s n = true →
    ((s.stack n).scrubEn = true ∨ (if dense = true then (s.stack n).denseScrub else (s.stack n).fastScrub) % 256 ≠ 0) →
    (if dense = true then (s.stack n).denseCopying else (s.stack n).fastCopying) = false →
    let at' := if dense = true then (s.stack n).denseScrub else (s.stack n).fastScrub
    let u := s.modStack n fun k => k.scrubbed dense s.now
    (if dense = true then (u.stack n).denseScrub else (u.stack n).fastScrub) = (at' + 1) % tierWords dense ∧
    ((at' + 1) % tierWords dense = 0 →
      (if dense = true then (u.stack n).densePasses = satInc 0xFF (s.stack n).densePasses ∧ (u.stack n).densePeriod = (s.stack n).scrubPeriod
       else (u.stack n).fastPasses = satInc 0xFF (s.stack n).fastPasses ∧ (u.stack n).fastPeriod = (s.stack n).scrubPeriod)) ∧
    (failures = 0 → exec (.scrubRead n dense failures) s = .next u) ∧
    (failures ≠ 0 → exec (.scrubRead n dense failures) s = .next (scrubFail u n dense (scrubOffset at') (decide (4 ≤ failures))))) ∧
  (∀ (n : Nat) (s : State), n < 20 →
    ((s.stack n).fastCopying = true → (s.stack n).fastRunning = true →
      exec (.dieCopyEnd n false) s = .next (ownWrite
        (s.modStack n fun k => { k with fastCopying := false, fastRunning := false, fastPtr := 0x300000 })
        (ixDieMap n) (dieMap s n - 256) (.copyEnd (resWord (.die n false ((s.stack n).fastDie.getD 0)))))) ∧
    ((s.stack n).denseCopying = true → (s.stack n).denseRunning = true →
      exec (.dieCopyEnd n true) s = .next (ownWrite
        (s.modStack n fun k => { k with denseCopying := false, denseRunning := false, densePtr := 0x600000 })
        (ixDieMap n) (dieMap s n - 512) (.copyEnd (resWord (.die n true ((s.stack n).denseDie.getD 0))))))) ∧
  (∀ (g : Nat) (s : State) (w : Swap), g < 40 →
    (s.spr.swaps.find? fun w => resClass w.res == 1 && decide (w.res % 2 ^ 24 / 12 = g) && w.written) = some w →
    exec (.shadowTestDone g true) s = .next (swapsOutsideRun { s with spr := { s.spr with swaps := s.spr.swaps.map fun x =>
      if (resClass x.res == 1 && decide (x.res % 2 ^ 24 / 12 = g) && x.written) = true then { x with tested := true } else x } }) ∧
    exec (.shadowTestDone g false) s = .next (needsRepair s (resWord (.builtinTest (w.res % 2 ^ 24)))))

/-- R442, R443, R445 and R449 on the end of a write. -/
def Obligations.StoreWriteCompletes : Prop :=
  ∀ (s : State) (w : PstWrite), s.pst.inFlight = some w → storeClocked s = true → s.pst.lost0 = false → s.pst.lost1 = false →
    s.pst.retry0 = false → s.pst.retry1 = false →
    (w.hook = .none → ∃ t, exec (.pstWriteDone true true) s = .next t ∧
      pstValue t w.index = w.value ∧ pstSeq t w.index = pstSeq s w.index + 1 ∧
      (∀ die, die < 2 → physAt t (physKey w.index die (pstSeq s w.index + 1)) = recordOf w.index w.value (pstSeq s w.index + 1) ∧
        (physAt t (physKey w.index die (pstSeq s w.index + 1))).valid w.index = true) ∧
      (∀ ix, ix ≠ w.index → pstValue t ix = pstValue s ix ∧ pstSeq t ix = pstSeq s ix) ∧
      t.pst.writes = satInc 0xFFFFFFFF s.pst.writes ∧ t.mem = s.mem ∧ t.glb = s.glb ∧ t.cores = s.cores) ∧
    (s.pst.fails1 < 2 → ∃ t, exec (.pstWriteDone true false) s = .next t ∧ t.pst.inFlight = some w ∧ t.pst.retry0 = false ∧
      t.pst.retry1 = true ∧ t.pst.fails1 = s.pst.fails1 + 1 ∧ t.pst.table = s.pst.table ∧ t = { s with pst := t.pst }) ∧
    (s.pst.fails0 < 2 → ∃ t, exec (.pstWriteDone false true) s = .next t ∧ t.pst.inFlight = some w ∧ t.pst.retry0 = true ∧
      t.pst.retry1 = false ∧ t.pst.fails0 = s.pst.fails0 + 1 ∧ t.pst.table = s.pst.table ∧ t = { s with pst := t.pst })

/-- R482 to R484 and R487, with the sources of R471 (REFCLK), R476 (dips) and R462 (a trial image). The write of the
store that a loss of VDD_AUX stops part way is free where no rule says where it stops. -/
def Obligations.FullResetsComplete : Prop :=
  (∀ (s : State) (torn : Nat × Nat), exec (.porN false torn) s = .next (fullReset s 1 0xF) ∧
    exec (.porN true torn) s = .next (fullReset (railLow (tearWrite s torn.1 torn.2) 0) 1 0)) ∧
  (∀ s : State, exec .sysrstN s = .next (fullReset s 5 0xF)) ∧
  (∀ (rail : Nat) (s : State), rail < 9 → exec (.railReset rail) s =
    .next (if rail = 0 then fullReset (railLow (tearFreely s) 0) 1 0 else if rail = 1 then losePlls (fullReset (railLow s 1) 2 1) allPlls else fullReset (railLow s rail) 2 rail)) ∧
  (∀ (rail : Nat) (s : State), rail < 9 → s.pwr.dip = true → 200000 ≤ s.now - s.pwr.dipStart →
    exec (.dipTimeout rail) s = .next (fullReset s 3 rail)) ∧
  (∀ s : State, s.pwr.refPresent = false →
    exec .refclkAbsentTimeout s = .next (fullReset (if storeClocked s = true then s else tearFreely s) 4 0xF)) ∧
  (∀ s : State, s.glb.state ≠ .cold → s.fw.dead = false → s.fw.recovery = false → s.fw.windowDone = false →
    60000000000 ≤ s.now - s.fw.windowStart →
    (s.fw.trial = true → exec .confirmWindowExpiry s = .next (fullReset s 6 0xF)) ∧
    (s.fw.trial = false → exec .confirmWindowExpiry s = .next (raiseOpen { s with fw := { s.fw with windowDone := true } } 17))) ∧
  (∀ (s : State) (code rail : Nat), s.pwr.resetHeld = false →
    (fullReset s code rail).glb.state = .cold ∧ (fullReset s code rail).pwr.resetHeld = true ∧
    (fullReset s code rail).sess = [] ∧ (fullReset s code rail).run.plan = none ∧ (fullReset s code rail).long = Long.reset ∧
    (fullReset s code rail).pwr.rstCode = code ∧ (fullReset s code rail).pwr.rstRail = rail ∧
    (fullReset s code rail).pwr.rstFull = (if code = 1 then 0 else satInc 0xFFFF s.pwr.rstFull) ∧
    (code = 1 ∨ (code = 2 ∧ (rail = 3 ∨ rail = 6)) → (fullReset s code rail).pwr.lostSlots = 3) ∧
    (fullReset s code rail).pst.phys = s.pst.phys ∧ (fullReset s code rail).pending = s.pending ∧
    (∀ e ∈ s.mem, storageOf e.1 = 0 ∨ storageOf e.1 = 1 →
      (e ∈ (fullReset s code rail).mem ↔ ¬(code = 1 ∨ (code = 2 ∧ (rail = 3 ∨ rail = 6)))))) ∧
  (∀ (s : State) (code rail : Nat), s.pwr.resetHeld = true → s.pwr.rstCode ≤ code →
    (fullReset s code rail).pwr.rstCode = s.pwr.rstCode ∧ (fullReset s code rail).pwr.rstRail = s.pwr.rstRail ∧
    (fullReset s code rail).pwr.rstFull = s.pwr.rstFull) ∧
  (∀ (s : State) (code rail : Nat), s.pwr.tick + 100 ≤ (fullReset s code rail).pwr.holdUntil)

/-- R482 and R457 (release and boot), R31 (ISOLATED), R35 (a failure that is still there), R461 (the test step).
DESIGN CHOICE: the checks of the boot ROM's writes pass (log 81), and what outruns the shadows after a reset (log 80).
-/
def Obligations.BootCommandsComplete : Prop :=
  (∀ (bpos : Nat) (meshOpen : Bool) (s : State), bpos < 4 → mayRelease s = true →
    let tick := if s.pwr.rstCode = 1 then 0 else s.pwr.tick
    let u := chooseRecords { s with
      pwr := { s.pwr with resetHeld := false, holdUntil := 0, tick := tick }
      glb := { s.glb with state := .booting }, lnk := { s.lnk with bpos := bpos }, fw := { s.fw with windowStart := tick } }
    let v := formPairs (loadValues (loadMaps (selectImage (endTrial (romWrite u ixBoots ((pstValue u ixBoots + 1) % 2 ^ 32))))))
    exec (.resetRelease bpos meshOpen) s = .next (startWrite (takeTemps (if meshOpen = true then majorAlarm (startCopies v) else v)))) ∧
  (∀ s : State, s.glb.state = .booting → s.fw.dead = false → s.glb.fnReset = 0 → portsSettled s = true →
    exec .bootComplete s = .next (stillBroken (forEach ((List.range 48).filter fun n => (s.port n).gaveUp) (fun s _ => raiseOpen s 10)
      (startScrub (startCopies { s with glb := { s.glb with state := .isolated }, lnk := { s.lnk with windows := testWindows } }))))) ∧
  (∀ s : State, s.glb.state = .isolated → s.pwr.dip = false → s.fw.testClean = false → s.fw.recovery = false → s.fw.testTries < 9 →
    exec (.testStepDone none) s = .next (tryConfirm { testScratch s with fw := { (testScratch s).fw with testClean := true }, lnk := { s.lnk with windows := [] } }) ∧
    (∀ w, exec (.testStepDone (some w)) s =
      .next (let u := { testScratch s with fw := { (testScratch s).fw with testTries := (testScratch s).fw.testTries + 1 } }
        match resOf w.toNat with
        | some r => countEvent u r
        | none => u)))

/-- R471, R473, R476, R477, R482, R485 and R486, with R419 for a PLL that fails (which PLLs REFLECT needs is log 80)
and R448 for the store. -/
def Obligations.ClocksAndRailsComplete : Prop :=
  (∀ (low : BitVec 9) (s : State), low ≠ 0 → s.pwr.dip = false →
    let u := taint { s with pwr := { s.pwr with low := low, dip := true, dipStart := s.now } }
    exec (.dipEntry low) s = .next (if low.getLsbD 1 = true ∧ s.pwr.low.getLsbD 1 = false then clockAlarm (losePlls u allPlls) else u)) ∧
  (∀ (low : BitVec 9) (s : State), s.pwr.dip = true →
    let u := { s with pwr := { s.pwr with low := low } }
    exec (.dipEntry low) s = .next (if low.getLsbD 1 = true ∧ s.pwr.low.getLsbD 1 = false then clockAlarm (losePlls u allPlls) else u)) ∧
  (∀ s : State, s.pwr.dip = true → s.pwr.resetHeld = false → s.now - s.pwr.dipStart ≤ 200000 →
    exec .dipRecovery s = .next (startWrite { s with pwr := { s.pwr with
      holdUntil := Nat.max s.pwr.holdUntil (s.now + 1000000), low := 0, dip := false, recovered := satInc 0xFFFF s.pwr.recovered } })) ∧
  (∀ (absent : Bool) (s : State), s.pwr.refOk = true →
    exec (.refclkLoss absent) s = .next (clockAlarm (losePlls { s with pwr := { s.pwr with
      refOk := false, refPresent := s.pwr.refPresent && !absent } } allPlls))) ∧
  (∀ s : State, exec .refclkReturn s = .next (startWrite { s with pwr := { s.pwr with refOk := true, refPresent := true } })) ∧
  (∀ (d : PllDomain) (n : Nat) (s : State), n < d.count →
    ((d, n) ∉ s.pwr.unlocked →
      let u := { s with pwr := { s.pwr with unlocked := s.pwr.unlocked ++ [(d, n)] } }
      exec (.pllLockLoss d n) s = .next (clockAlarm (if d = .compute ∨ d = .mortar ∨ d = .stackLogic then taint u else u))) ∧
    ((d, n) ∈ s.pwr.unlocked → pllFed s = true →
      exec (.pllFail d n) s = .next (needsRepairAt s (8 * 2 ^ 24 + 0x200 + pllDie d n) (d != .compute && d != .ethernet))) ∧
    (pllFed s = true →
      let u := { s with pwr := { s.pwr with unlocked := s.pwr.unlocked.filter fun x => x != (d, n) } }
      exec (.pllRelock d n) s = .next (if d = .ioDie then releaseHeld u
        else if d = .link then flushPort (if 3 ≤ (u.port n).state ∧ (u.port n).identSent = false then sendIdent u n else u) n
        else u)))

/-- R480 and the junction range of R382, with the frame. -/
def Obligations.ThermalLevelMeasures : Prop :=
  ∀ (d : Nat) (temp : Int) (s : State), d < 32 → s.glb.state ≠ .cold → ∃ t, exec (.thermalLevel d temp) s = .next t ∧
    tfind t.pwr.temps d = some temp ∧
    (let after (was : Bool) (on off : Int) : Bool := if on ≤ temp then true else if temp < off then false else was
     (∀ k, k < 10 → t.pwr.stretch.getLsbD k = (if k = d then after (s.pwr.stretch.getLsbD k) 1600 1552 else s.pwr.stretch.getLsbD k) ∧
       t.pwr.holdBrick.getLsbD k = (if k = d then after (s.pwr.holdBrick.getLsbD k) 1664 1632 else s.pwr.holdBrick.getLsbD k)) ∧
     (∀ k, k < 2 → t.pwr.throttleIod.getLsbD k = (if 10 + k = d then after (s.pwr.throttleIod.getLsbD k) 1600 1552 else s.pwr.throttleIod.getLsbD k) ∧
       t.pwr.holdIod.getLsbD k = (if 10 + k = d then after (s.pwr.holdIod.getLsbD k) 1664 1632 else s.pwr.holdIod.getLsbD k)) ∧
     (∀ k, k < 20 → t.pwr.throttleStk.getLsbD k = (if 12 + k = d then after (s.pwr.throttleStk.getLsbD k) 1600 1552 else s.pwr.throttleStk.getLsbD k) ∧
       t.pwr.holdStk.getLsbD k = (if 12 + k = d then after (s.pwr.holdStk.getLsbD k) 1664 1632 else s.pwr.holdStk.getLsbD k))) ∧
    (outOfRange temp = true → (∀ x, tfind s.pwr.temps d = some x → outOfRange x = false) → s.keys.majorAt ≠ some s.pwr.tick →
      t.keys.lastAlarm = 3 ∧ t.keys.minorAlarms = Nat.min 0xFFFF (s.keys.minorAlarms + 1)) ∧
    (outOfRange temp = false → t.keys = s.keys) ∧
    t.mem = s.mem ∧ t.cores = s.cores ∧ t.run = s.run ∧ t.glb = s.glb ∧ t.pst = s.pst

/-- R292 to R294, R304 and R305. That a port goes from one order of R293 to the next in an idle tick, and that it is
free whether its lanes lock in that tick, are the model's (log 10, log 84), that the IDENT flit advances no SEQ its
choice (log 23). -/
def Obligations.LinkTrainingCompletes : Prop :=
  (∀ (n : Nat) (s : State), n < 48 →
    (s.glb.state ≠ .cold → exec (.signalDetect n) s = .next (s.modPort n fun x =>
      { x with signal := true, state := if mayTrain s n then 1 else x.state })) ∧
    (s.glb.state ≠ .cold → s.inReset 3 = false → linkClocked s n = true →
      let locks : Bool := (Config.freeByte s.fresh 0).getLsbD 0
      ((s.port n).state = 1 → portTick s n = if locks = true then s.ticket.modPort n fun x => { x with state := 2 } else s.ticket) ∧
      ((s.port n).state = 2 → (locks = false ∧ portTick s n = s.ticket) ∨ (locks = true ∧ ∃ idle out,
        (portTick s n).egress = .flit n out :: .flit n idle :: s.egress ∧ idle.typ = 0 ∧ out.typ = 3 ∧
        out.payload = [4, 0, 0, 0] ++ identMsg s n ++ List.replicate 380 0 ∧
        ((portTick s n).port n).state = 3 ∧ ((portTick s n).port n).identSent = true ∧ (∀ k, k ≠ n → (portTick s n).port k = s.port k)))) ∧
    (1 ≤ (s.port n).state → (s.port n).state ≤ 3 → ∃ t, exec (.trainingTimeout n) s = .next t ∧
      t.port n = { s.port n with state := 0, identSent := false, fails := satInc 0xFFFF (s.port n).fails, restarts := (s.port n).restarts + 1,
                                 gaveUp := (s.port n).gaveUp || (s.glb.state == .booting && decide (8 ≤ (s.port n).restarts + 1)) } ∧
      (∀ k, k ≠ n → t.port k = s.port k) ∧ t = { s with link := t.link }) ∧
    ((s.port n).state = 3 → s.inReset 3 = false → linkClocked s n = true →
      ∃ t out, exec (.identResend n) s = .next t ∧ t.egress = .flit n out :: s.egress ∧ out.typ = 3 ∧
        out.payload = [4, 0, 0, 0] ++ identMsg s n ++ List.replicate 380 0 ∧ (∀ k, k ≠ n → t.port k = s.port k) ∧
        t = { s with link := t.link, egress := t.egress }) ∧
    ((s.port n).state ≠ 0 → (s.port n).state ≠ 5 → exec (.linkDown n) s = .next (dropLink s n)) ∧
    (∀ since, (s.port n).downSince = some since → (s.port n).state ≠ 4 → s.lnk.downLimit ≤ s.now - since → (s.port n).used = true →
      s.run.plan.isSome = true → (s.port n).lostReported = false →
      let u := raiseOpen (s.setPort n { s.port n with lostReported := true }) 9
      exec (.linkLost n) s = .next (if buddyReachable u = true then endRun u else loseHolder u))) ∧
  (∀ (n : Nat) (f : Flit) (s : State), n < 48 → f.typ = 3 → ctrlCode f = 4 → hearsIdent s n = true →
    (f.parity ≠ flitParity f → exec (.ident n f) s = .next (askReplay s n f)) ∧
    (f.parity = flitParity f →
      let u := seeTaint (takeAck s n f) f
      (hearsIdent u n = false → exec (.ident n f) s = .next u) ∧
      (hearsIdent u n = true → ((u.port n).state = 5 → (u.port n).reason ≠ 6 ∧ (u.port n).reason ≠ 7) →
        ∀ i, parseIdent ((f.payload.drop 4).take 128) = some i →
          exec (.ident n f) s = .next (settleLink u n i) ∧
          (bit i.proto 1 = false → u.spr.repairAfterReflect = none →
            ∃ t, exec (.ident n f) s = .next t ∧ (t.port n).state = 5 ∧ (t.port n).reason = 3))))

/-- R285 to R291 and R302, for every flit type. That IDLE flits are not numbered is log 23. -/
def Obligations.FlitsComplete : Prop :=
  ∀ (n : Nat) (f : Flit) (s : State), n < 48 → carries s n f = true →
    let u := takeAck s n f
    let v := seeTaint (u.setPort n { u.port n with rxSeq := f.seq, awaiting := false }) f
    let rows : List (Instr × (State → State)) :=
      (if f.typ = 1 then [(.flitData n f, fun s => acceptData s n f)] else []) ++
      (if f.typ = 2 then [(.flitMsg n f, fun s => acceptMsg s n f)] else []) ++
      (if f.typ = 4 then [(.flitRdreq n f, fun s => acceptRdreq s n f)] else []) ++
      (if f.typ = 3 ∧ ctrlCode f = 1 then [(.flitDrain n f, fun s =>
        let s := s.modPort n fun x => { x with drainIn := insertOnce (flitKey f) x.drainIn }
        sendFlit s n { blankFlit s 3 with step := f.step, attempt := f.attempt, phase := f.phase, words := 1
                                          payload := [2, 0] ++ List.replicate 510 0 })] else []) ++
      (if f.typ = 3 ∧ ctrlCode f = 2 then
        [(.flitDrainAck n f, fun s => s.modPort n fun x => { x with drainAck := insertOnce (flitKey f) x.drainAck })] else []) ++
      (if f.typ = 3 ∧ ctrlCode f = 3 then
        [(.laneSwap n f, fun s => if ctrlArg f < 8 then s.modPort n fun x => { x with txLane := some (ctrlArg f) } else s)] else [])
    (∀ r ∈ rows,
      (f.parity ≠ flitParity f →
        exec r.1 s = .next (askReplay s n f)) ∧
      (f.parity = flitParity f → carries u n f = true → f.seq = (u.port n).rxSeq + 1 → exec r.1 s = .next (r.2 v)) ∧
      (f.parity = flitParity f → carries u n f = true → f.seq ≠ (u.port n).rxSeq + 1 →
        exec r.1 s = .next (if ((u.port n).rxSeq - f.seq).toNat < 0x8000 ∨ (u.port n).awaiting = true then u else askReplay u n f))) ∧
    (f.typ = 0 →
      (f.parity ≠ flitParity f → exec (.flitIdle n f) s = .next (askReplay s n f)) ∧
      (f.parity = flitParity f → carries u n f = true → exec (.flitIdle n f) s = .next (seeTaint u f)))

/-- R387, R390, R391, R410 and R493. The priority of an untyped frame's tag, and a quantum of 512 bit times at 800
Gbit/s, are the model's (log 86). -/
def Obligations.EthernetFramesComplete : Prop :=
  (∀ (f : Frame) (s : State), f.port < 2 → passes s f.port = true → s.glb.state ≠ .cold →
    (∀ t, strangerDrop (countRx s f.port) f = some t → exec (.strangerFrame f) s = .next t ∧
      (t.ether f.port).dropMac = (if macOk f = false then satInc 0xFFFF (s.ether f.port).dropMac else (s.ether f.port).dropMac) ∧
      (t.ether f.port).dropVlan = (if macOk f = true ∧ vlanOk s f = false then satInc 0xFFFF (s.ether f.port).dropVlan
        else (s.ether f.port).dropVlan) ∧
      (t.ether f.port).dropIp = (if macOk f = true ∧ vlanOk s f = true ∧ netOk s f = false then satInc 0xFFFF (s.ether f.port).dropIp
        else (s.ether f.port).dropIp) ∧
      (t.ether f.port).dropProto = (if macOk f = true ∧ vlanOk s f = true ∧ netOk s f = true ∧ transportOk f = false then
        satInc 0xFFFF (s.ether f.port).dropProto else (s.ether f.port).dropProto) ∧
      (t.ether f.port).dropPort = (if macOk f = true ∧ vlanOk s f = true ∧ netOk s f = true ∧ transportOk f = true then
        satInc 0xFFFF (s.ether f.port).dropPort else (s.ether f.port).dropPort) ∧
      t.mem = s.mem ∧ t.glb = s.glb ∧ t.run = s.run) ∧
    (∀ z ok e p, strangerDrop (countRx s f.port) f = none → f.transport = .udp s.isx.port z ok → f.isaex = some (e, p) → e.port = f.port →
      exec (.strangerFrame f) s = .next (serveHeld (countRx s f.port) (commandOf e p)))) ∧
  (∀ (n : Nat) (mac : BitVec 48) (ip : W32) (s : State), n < 2 → answers s n = true → (s.ether n).ipv4 ≠ 0 →
    ∃ t, exec (.arpRequest n mac ip (s.ether n).ipv4) s = .next t ∧ t.egress = .arpReply n mac ip (plainTag s n) :: s.egress ∧
      t = { s with eth := t.eth, egress := t.egress } ∧ (∀ k, k ≠ n → t.ether k = s.ether k)) ∧
  (∀ (n : Nat) (mac : BitVec 48) (ip target : BitVec 128) (s : State), n < 2 → answers s n = true →
    target = linkLocal (Config.mac n) ∨ (target ≠ 0 ∧ target = (s.ether n).ipv6) →
    ∃ t, exec (.neighbourSolicitation n mac ip target) s = .next t ∧ t.egress = .neighbourAdvertisement n mac ip target (plainTag s n) 64 :: s.egress ∧
      t = { s with eth := t.eth, egress := t.egress } ∧ (∀ k, k ≠ n → t.ether k = s.ether k)) ∧
  (∀ (n : Nat) (enable : BitVec 8) (quanta : List Nat) (s : State), n < 2 → passes s n = true → s.glb.state ≠ .cold →
    ((∀ c, c < 4 → pfcOn (s.ether n) c = false) → exec (.pfcFrame n enable quanta) s = .next (dropMac (countRx s n) n)) ∧
    ((∃ c, c < 4 ∧ pfcOn (s.ether n) c = true) → ∃ t, exec (.pfcFrame n enable quanta) s = .next t ∧
      (∀ c, c < 4 → tfind (t.ether n).paused c =
        (if pfcOn (s.ether n) c = true ∧ enable.getLsbD (pcpOf (s.ether n) c) = true then
          (if quanta.getD (pcpOf (s.ether n) c) 0 = 0 then none else some (s.now + quantaTicks (quanta.getD (pcpOf (s.ether n) c) 0)))
         else tfind (s.ether n).paused c)) ∧
      (∀ x ∈ (t.ether n).waits, ∀ c, x.cls = some c → x ∈ (s.ether n).waits ∧ classPaused t n c = true) ∧
      t = { s with eth := t.eth, egress := t.egress } ∧ (∀ k, k ≠ n → t.ether k = s.ether k))) ∧
  (∀ (n : Nat) (x : Sent) (s : State), n < 2 → passes s n = true →
    (∀ c, x.cls = some c → classPaused s n c = true →
      sendFrame s n x = s.modEther n fun e => { e with waits := e.waits ++ [x] }) ∧
    ((∀ c, x.cls = some c → classPaused s n c = false ∧ ∀ y ∈ (s.ether n).waits, y.cls ≠ some c) →
      (sendFrame s n x).egress = x :: s.egress ∧ (sendFrame s n x).mem = s.mem)) ∧
  (∀ (n : Nat) (up : Bool) (s : State), n < 2 → s.glb.state ≠ .cold →
    exec (.ethLinkChange n up) s = .next (s.modEther n fun e =>
      { e with linkUp := up, fecLock := up, paused := if up = true then e.paused else [], waits := if up = true then e.waits else [] }))

/-- R345 to R350, R356, R357, R371, R372, R374 and R379. -/
def Obligations.FuellePacketsComplete : Prop :=
  (∀ (f : FPkt) (s : State), FulAccepts f s →
    let r := (requestKey (countRx s f.port) f.port (fuelleName f.context false f.epoch.toNat) 32 f.plain.length).1
    let u := refreshFuelle (r.setFuelle f.context ((s.fuelle f.context).accept (fulCount f) s.now f)) f.context
    (f.typ = 1 → exec (.fuelleData f) s = .next (takePacket u f.context f)) ∧
    (f.typ = 2 → exec (.fuelleParity f) s = .next (takePacket u f.context f)) ∧
    (f.typ = 3 → exec (.fuelleAck f) s = .next (takeAckPacket u f.context f)) ∧
    (f.typ = 5 → ∃ t, exec (.fuelleClose f) s = .next t ∧ t.fuelle f.context = FulCtx.reset ∧ t.mem = s.mem ∧ t.run = s.run) ∧
    (f.typ = 6 → exec (.fuelleJoin f) s =
      .next (if canSponsor u = true then u.modFuelle f.context fun c => { c with joinAsked := true } else sendFulOffer u f.context))) ∧
  (∀ (f : FPkt) (s : State), FulReaches f s → f.typ = 4 → f.epoch = 0 → s.keys.cur.isSome = true → offerSalt f ≠ 0 →
    let w := (s.fuelle f.context).offerWindow (offerSalt f)
    (windowOk w.1 w.2 f.seq.toNat = false → exec (.fuelleOffer f) s = .next (fulDropSeq (countRx s f.port) f.port) ∧
      (fulDropSeq (countRx s f.port) f.port).fctx = s.fctx) ∧
    (windowOk w.1 w.2 f.seq.toNat = true → (s.fuelle f.context).offerRx ≠ offerSalt f →
      exec (.fuelleOffer f) s = .next (awaitKey (countRx s f.port) f (.offerRx f.context (offerSalt f)))) ∧
    (let r := requestKey (countRx s f.port) f.port (offerName f.context false (offerSalt f)) 32 f.plain.length
     windowOk w.1 w.2 f.seq.toNat = true → (s.fuelle f.context).offerRx = offerSalt f →
     r.2 = true → fulTagOk (s.modFuelle f.context fun c => { c with saltPeer := offerSalt f }) f.context 2 0 f = true → fulFieldsOk f = true →
     ∃ u, exec (.fuelleOffer f) s = .next (takeOffer u f.context f) ∧
       u.fuelle f.context = { s.fuelle f.context with
         offerSeen := tput (s.fuelle f.context).offerSeen (offerSalt f).toNat (Nat.max (w.1.getD f.seq.toNat) f.seq.toNat, windowSeen w.1 w.2 f.seq.toNat)
         ceRx := if f.ce = true then ((s.fuelle f.context).ceRx + 1) % 2 ^ 32 else (s.fuelle f.context).ceRx } ∧
       u = { s with eth := u.eth, cip := u.cip, fctx := u.fctx }))

/-- R333, R334, R338, R344, R350, R353, R357, R358, R375 and R376. -/
def Obligations.FuelleTimersAndRoundsComplete : Prop :=
  (∀ (ctx : Nat) (s : State), ctx < 16384 →
    (∀ f, fulSched s = some f → (s.fuelle ctx).state = 2 → (s.fuelle ctx).saltPeer ≠ 0 → fulQuiet s ctx = false → (s.ether (portOf ctx)).nextHop ≠ 0 →
      let u := abandonRounds s ctx
      exec (.fuellePacedSend ctx) s =
        .next (if (u.fuelle ctx).canSeal = false ∧ alarmMeets u (u.fuelle ctx).txCount = false then keyWait u ctx else pacedPacket u ctx f)) ∧
    ((s.fuelle ctx).state ≠ 0 → (s.fuelle ctx).rxHi.isSome = true → s.now - (s.fuelle ctx).newestAt ≤ ackInterval (s.fuelle ctx) →
      exec (.fuelleAckTimer ctx) s = .next (forEach (s.fuelle ctx).rx (fun s x => sendAck s ctx x.round x.sponsor) s)) ∧
    ((s.fuelle ctx).state ≠ 0 → (s.fuelle ctx).state ≠ 4 → (s.fuelle ctx).saltPeer = 0 →
      exec (.fuelleOfferTimer ctx) s = .next (sendFulOffer s ctx)) ∧
    ((s.fuelle ctx).state = 3 → (s.fuelle ctx).saltPeer ≠ 0 → (s.fuelle ctx).installed = false → fulQuiet s ctx = false →
      exec (.fuelleOfferTimer ctx) s = .next (fulSend s ctx (fulBlank s ctx 6 (beBytes 4 (roundBase s))))) ∧
    (let u := abandonRounds s ctx
     ∀ x, ((u.fuelle ctx).tx.find? fun x =>
        decide (x.total (u.fuelle ctx) ≤ x.next) && x.resend.isEmpty && decide (x.done < x.groupCount (u.fuelle ctx).k ∧
          u.now - x.heardAt ≥ (u.fuelle ctx).rto * (u.fuelle ctx).rtoScale)) = some x →
      exec (.fuelleRtoExpiry ctx) s = .next (scaleRates ((setRound u ctx { x with
        resend := (List.range (x.groupSize (u.fuelle ctx).k x.done + (u.fuelle ctx).m)).map fun i => (x.done, i)
        resentAt := tput x.resentAt x.done s.now }).modFuelle ctx fun c =>
          { c.paceBy s.now false true with rtoScale := Nat.min 16 (2 * c.rtoScale) }) (portOf ctx))) ∧
    ((s.fuelle ctx).state = 2 ∨ (s.fuelle ctx).state = 3 → (s.fuelle ctx).saltPeer ≠ 0 →
      (∀ since, (s.fuelle ctx).awaiting = some since → 16 * (s.fuelle ctx).rto ≤ s.now - since →
        let u := dropUses (s.modFuelle ctx fun c => { c with saltPeer := 0, txEpochs := [], due := [], rxEpochs := [], awaiting := none }) (portOf ctx)
          fun k => k.use == 3 && k.ctx == ctx
        exec (.fuelleRekey ctx) s = .next (sendFulOffer (drawSalt
          (u.modCipher (portOf ctx) fun x => { x with rekeys := satInc 0xFFFF x.rekeys }) ctx) ctx)) ∧
      ((s.fuelle ctx).awaiting = none → exec (.fuelleRekey ctx) s = .next s))) ∧
  (∀ (s : State) (f : FulSched) (r : Nat), fulSched s = some f → sendRound s = some r → runInProgress s = true →
    (s.glb.state = .running ∨ s.isx.parking = true) → s.run.phase = 5 → s.run.abandoned = false → s.run.exchangeDone = false →
    s.inReset 4 = false →
    exec .roundQueued s = .next (queueRound s f r) ∧ (queueRound s f r).run.exchangeDone = true ∧ (queueRound s f r).ful.queued = some r) ∧
  (∀ (s : State) (r : Nat), s.ful.closed = some r → runInProgress s = true → s.ful.ready = false → s.run.abandoned = false →
    s.inReset 4 = false → s.run.phase ≤ 2 →
    ∃ t, exec .roundReady s = .next t ∧ t.ful = { s.ful with ready := true } ∧ (t.die 0).formed = r ∧ (t.die 1).formed = r ∧
      t.mem = (formDelta s).mem ∧ t.cores = s.cores ∧ t.run = s.run) ∧
  (∀ (s : State) (p : Plan) (f : FulSched), s.run.plan = some p → fulSched s = some f →
    (s.ful.joinSince.isSome = true → (∃ e ∈ s.fctx, e.2.joining = true) → (∀ e ∈ s.fctx, e.2.joining = true → e.2.installed = true) →
      exec .joinEnd s = .next (endJoin s p f)) ∧
    (∀ since, s.ful.joinSince = some since → s.ful.joinFor ≤ s.now - since → exec .joinLimitExpiry s = .next (endJoin s p f)))

/-- R389 to R391, R408 and R409. That a packet waits in C2 while the stack of its record serves no access is the
model's (log 86). -/
def Obligations.IngestArrivalsComplete : Prop :=
  (∀ (q : IPkt) (s : State), q.port < 2 → passes s q.port = true → s.glb.state ≠ .cold →
    let u := countRx s q.port
    ((openPorts s q.port).contains q.dport = false →
      exec (.ingestData q) s = .next (dropPort u q.port) ∧ exec (.ingestError q) s = .next (dropPort u q.port)) ∧
    ((openPorts s q.port).contains q.dport = true →
      ((s.ether q.port).c2 ≠ [] ∨ landWaits s q = true →
        ((s.ether q.port).c2.length < 512 → ∃ t, exec (.ingestData q) s = .next t ∧ exec (.ingestError q) s = .next t ∧
          (t.ether q.port).c2 = (s.ether q.port).c2 ++ [q] ∧ t = { s with eth := t.eth, egress := t.egress }) ∧
        (512 ≤ (s.ether q.port).c2.length →
          exec (.ingestData q) s = .next (dropQueue u q.port) ∧ exec (.ingestError q) s = .next (dropQueue u q.port))) ∧
      ((s.ether q.port).c2 = [] → landWaits s q = false →
        (readOf s q = none → exec (.ingestData q) s = .next (dropIngest u q.port) ∧ exec (.ingestError q) s = .next (dropIngest u q.port)) ∧
        (∀ k e r, readOf s q = some (k, e, r) →
          (q.typ = 2 → readRangeOk e r q = true → ingestCheck q = q.check.toNat → exec (.ingestData q) s = .next (landRecord u k e r q)) ∧
          (q.typ = 2 → readRangeOk e r q = true → ingestCheck q ≠ q.check.toNat → exec (.ingestData q) s = .next (dropIngestCrc u q.port)) ∧
          (q.typ = 2 → readRangeOk e r q = false → exec (.ingestData q) s = .next (dropIngest u q.port)) ∧
          (q.typ = 3 → errorRangeOk e r q = true → ingestCheck q = q.check.toNat → ∃ t, exec (.ingestError q) s = .next t ∧
            t.stream k = { s.stream k with stalled := true, reads := [] } ∧ (∀ j, j ≠ k → t.stream j = s.stream j) ∧ t.mem = s.mem) ∧
          (q.typ = 3 → errorRangeOk e r q = true → ingestCheck q ≠ q.check.toNat → exec (.ingestError q) s = .next (dropIngestCrc u q.port)) ∧
          (q.typ = 3 → errorRangeOk e r q = false → exec (.ingestError q) s = .next (dropIngest u q.port)))))) ∧
  (∀ (k n : Nat) (s : State) (e : StreamEntry) (r : IngRead), k < 2048 → streamEntry s k = some e →
    ((s.stream k).reads.find? fun r => r.record == n) = some r → ingestRuns s (e.context / 0x2000 % 2) = true →
    (s.now - r.sentAt < 200000 → exec (.ingestReadTimeout k n) s = .next s) ∧
    (200000 ≤ s.now - r.sentAt → r.tries < 8 → exec (.ingestReadTimeout k n) s = .next (sendRead s k e n (r.tries + 1) r.landed)) ∧
    (200000 ≤ s.now - r.sentAt → 8 ≤ r.tries → exec (.ingestReadTimeout k n) s = .next (stallStream s k)))

/-- R165, over every bundle that would otherwise reach issue. -/
def Obligations.KickOfNoEngineIsRefused : Prop :=
  ∀ (c : Nat) (s : State), c < 480 → coreRuns s c = true → (s.core c).bun = none → s.glb.state ≠ .quiesced →
    mustWait (s.core c) (fetch s c) = false → (readP (s.core c) c (bpredOf (fetch s c))).getLsbD 0 = true →
    slotEnabled (fetch s c) 7 = true → opOf (slotWord (fetch s c) 7) = 0x38 → 10 ≤ bits (slotWord (fetch s c) 7) 33 30 →
    exec (.ctlKick c) s = .next (endRun (raiseOpen (s.modCore c fun x => { x with faultCode := 1, faultPc := x.pc, faultTok := 0 }) 1))

/-- R484, for two sources together and for one that comes into a held reset. -/
def Obligations.LowestResetCodeIsRecorded : Prop :=
  (∀ (s : State) (a b ra rb : Nat), s.pwr.resetHeld = false →
    let t := fullReset (fullReset s a ra) b rb
    t.pwr.resetHeld = true ∧ t.pwr.rstCode = Nat.min a b ∧ (a ≠ b → t.pwr.rstRail = if a < b then ra else rb)) ∧
  (∀ (s : State) (code rail : Nat), s.pwr.resetHeld = true →
    let t := fullReset s code rail
    t.pwr.resetHeld = true ∧ t.pwr.holdUntil = Nat.max s.pwr.holdUntil (s.now + 100) ∧
    t.pwr.rstCode = (if code < s.pwr.rstCode then code else s.pwr.rstCode) ∧
    t.pwr.rstRail = (if code < s.pwr.rstCode then rail else s.pwr.rstRail))

/-- R280, over every pair of LO and HI words that R247, R259, R279, R441 and R485 give. -/
def Obligations.LowWordsLatchHighWords : Prop :=
  let law (lo : Nat) (count : State → Nat) : Prop := ∀ s t : State,
    ((readReg s lo).1 = count s % 2 ^ 32) ∧
    (t.latches = (readReg s lo).2.latches →
      (readReg t (lo + 4)).1 = count s / 2 ^ 32 % 2 ^ 32 ∧ tfind (readReg t (lo + 4)).2.latches (lo + 4) = none) ∧
    (tfind t.latches (lo + 4) = none → (readReg t (lo + 4)).1 = count t / 2 ^ 32 % 2 ^ 32)
  law 0x20000 (fun s => s.now) ∧ law 0xCC (fun s => s.run.step) ∧
  law 0x60224 (fun s => s.spr.reflected) ∧ law 0x6022C (fun s => s.spr.held) ∧
  (∀ n, n < 20 → law (0xA00004 + 0x10000 * n) fun s => (s.unit n).committed) ∧
  (∀ c, c < 480 → (∀ k, k < 9 → law (0x100000 + 0x100 * c + 8 * k) fun s => tget 0 (s.core c).idle k) ∧
    law (0x100048 + 0x100 * c) fun s => (s.core c).busy)

/-- R43, pattern by pattern. -/
def Obligations.TopExponentOfE4M3IsFinite : Prop :=
  ∀ m, m < 7 → (decodeNum .e4m3 (0x78 + m)).eqv (.ofInt (256 + 32 * (m : Int))) = true ∧
    (decodeNum .e4m3 (0xF8 + m)).eqv (.ofInt (-(256 + 32 * (m : Int)))) = true ∧
    (decodeNum .e4m3 (0x78 + m)).isNan = false ∧ (decodeNum .e4m3 (0xF8 + m)).isNan = false

/-- R144 for FMT 6, with R137 (elements) and R151 (masked elements). -/
def Obligations.IntegerVectorResults : Prop :=
  ∀ v : VIn, v.fmt = 6 →
    let row (o : VOut) (g : Nat → Nat) : Prop := o.off = 0 ∧ o.pd = none ∧ o.sc = [] ∧ ∃ l, o.vd = some l ∧ l.length = 512 ∧
      ∀ i, i < 128 → ∀ k, k < 4 → l[4 * i + k]? = some
        ((if v.on i = true then BitVec.ofNat 8 (g i / 256 ^ k) else 0), (if v.on i = true ∨ v.pz = true then 0xFF else 0))
    row (vAddOut v) (fun i => (v.a i + v.b i) % 2 ^ 32) ∧ row (vSubOut v) (fun i => (v.a i + 2 ^ 32 - v.b i) % 2 ^ 32) ∧
    row (vMulOut v) (fun i => v.a i * v.b i % 2 ^ 32) ∧ row (vAndOut v) (fun i => v.a i &&& v.b i) ∧
    row (vOrOut v) (fun i => v.a i ||| v.b i) ∧ row (vXorOut v) (fun i => v.a i ^^^ v.b i) ∧
    row (vShlOut v) (fun i => v.a i * 2 ^ (v.b i % 32) % 2 ^ 32) ∧ row (vShrOut v) (fun i => v.a i / 2 ^ (v.b i % 32))
end

