-- ==== Sys2Proof/Laws/State.lean ====
section
/-!
SUPPORT. Small laws of the state: tables, and one lemma per field for each named update of State.
-/
namespace Sys2Proof.Machine

/-! ### Tables -/

@[simp] theorem tfind_nil {α : Type} (k : Nat) : tfind ([] : Tab α) k = none := rfl

theorem tfind_tput_same {α : Type} (t : Tab α) (k : Nat) (v : α) : tfind (tput t k v) k = some v := by
  induction t with
  | nil => simp [tput, tfind]
  | cons e r ih =>
    obtain ⟨k', w⟩ := e
    simp only [tput]
    split
    · simp [tfind]
    · split
      · simp [tfind]
      · have : ¬ k' = k := fun h => by omega
        simp [tfind, this, ih]

theorem tfind_tput_other {α : Type} (t : Tab α) (k j : Nat) (v : α) (h : j ≠ k) : tfind (tput t k v) j = tfind t j := by
  have hk : ¬ k = j := fun e => h e.symm
  induction t with
  | nil => simp [tput, tfind, hk]
  | cons e r ih =>
    obtain ⟨k', w⟩ := e
    simp only [tput]
    split
    · simp [tfind, hk]
    · split
      · subst_vars
        simp [tfind, hk]
      · simp only [tfind, ih]

@[simp] theorem tget_tput_same {α : Type} (d : α) (t : Tab α) (k : Nat) (v : α) : tget d (tput t k v) k = v := by
  simp [tget, tfind_tput_same]

@[simp] theorem tget_tput_other {α : Type} (d : α) (t : Tab α) (k j : Nat) (v : α) (h : j ≠ k) :
    tget d (tput t k v) j = tget d t j := by
  simp [tget, tfind_tput_other t k j v h]

/-! ### Units -/

@[simp] theorem State.core_setCore (s : State) (n : Nat) (x : Core) : (s.setCore n x).core n = x := by
  simp [State.core, State.setCore]
theorem State.core_setCore_other (s : State) (n m : Nat) (x : Core) (h : m ≠ n) : (s.setCore n x).core m = s.core m := by
  simp [State.core, State.setCore, h]
@[simp] theorem State.session_setSession (s : State) (n : Nat) (x : Sess) : (s.setSession n x).session n = x := by
  simp [State.session, State.setSession]
theorem State.session_setSession_other (s : State) (n m : Nat) (x : Sess) (h : m ≠ n) :
    (s.setSession n x).session m = s.session m := by simp [State.session, State.setSession, h]
@[simp] theorem State.port_setPort (s : State) (n : Nat) (x : Link) : (s.setPort n x).port n = x := by
  simp [State.port, State.setPort]
theorem State.port_setPort_other (s : State) (n m : Nat) (x : Link) (h : m ≠ n) : (s.setPort n x).port m = s.port m := by
  simp [State.port, State.setPort, h]
@[simp] theorem State.cluster_setCluster (s : State) (n : Nat) (x : Cluster) : (s.setCluster n x).cluster n = x := by
  simp [State.cluster, State.setCluster]
@[simp] theorem State.fuelle_setFuelle (s : State) (n : Nat) (x : FulCtx) : (s.setFuelle n x).fuelle n = x := by
  simp [State.fuelle, State.setFuelle]
@[simp] theorem State.unit_modUnit (s : State) (n : Nat) (f : UpdUnit → UpdUnit) : (s.modUnit n f).unit n = f (s.unit n) := by
  simp [State.unit, State.modUnit]
@[simp] theorem State.stack_modStack (s : State) (n : Nat) (f : Stk → Stk) : (s.modStack n f).stack n = f (s.stack n) := by
  simp [State.stack, State.modStack]
@[simp] theorem State.ether_modEther (s : State) (n : Nat) (f : Eth → Eth) : (s.modEther n f).ether n = f (s.ether n) := by
  simp [State.ether, State.modEther]
@[simp] theorem State.cipher_modCipher (s : State) (n : Nat) (f : Cip → Cip) : (s.modCipher n f).cipher n = f (s.cipher n) := by
  simp [State.cipher, State.modCipher]
@[simp] theorem State.stream_modStream (s : State) (n : Nat) (f : IngStream → IngStream) :
    (s.modStream n f).stream n = f (s.stream n) := by simp [State.stream, State.modStream]
@[simp] theorem State.die_modDie (s : State) (n : Nat) (f : FulDie → FulDie) : (s.modDie n f).die n = f (s.die n) := by
  simp [State.die, State.modDie]

/-! `State.setCore` changes `cores` alone. -/

@[simp] theorem State.setCore_pending (s : State) (n : Nat) (x : Core) : (s.setCore n x).pending = s.pending := rfl
@[simp] theorem State.setCore_glb (s : State) (n : Nat) (x : Core) : (s.setCore n x).glb = s.glb := rfl
@[simp] theorem State.setCore_run (s : State) (n : Nat) (x : Core) : (s.setCore n x).run = s.run := rfl
@[simp] theorem State.setCore_pwr (s : State) (n : Nat) (x : Core) : (s.setCore n x).pwr = s.pwr := rfl
@[simp] theorem State.setCore_pst (s : State) (n : Nat) (x : Core) : (s.setCore n x).pst = s.pst := rfl
@[simp] theorem State.setCore_fw (s : State) (n : Nat) (x : Core) : (s.setCore n x).fw = s.fw := rfl
@[simp] theorem State.setCore_keys (s : State) (n : Nat) (x : Core) : (s.setCore n x).keys = s.keys := rfl
@[simp] theorem State.setCore_cip (s : State) (n : Nat) (x : Core) : (s.setCore n x).cip = s.cip := rfl
@[simp] theorem State.setCore_isx (s : State) (n : Nat) (x : Core) : (s.setCore n x).isx = s.isx := rfl
@[simp] theorem State.setCore_sess (s : State) (n : Nat) (x : Core) : (s.setCore n x).sess = s.sess := rfl
@[simp] theorem State.setCore_long (s : State) (n : Nat) (x : Core) : (s.setCore n x).long = s.long := rfl
@[simp] theorem State.setCore_eth (s : State) (n : Nat) (x : Core) : (s.setCore n x).eth = s.eth := rfl
@[simp] theorem State.setCore_spr (s : State) (n : Nat) (x : Core) : (s.setCore n x).spr = s.spr := rfl
@[simp] theorem State.setCore_stk (s : State) (n : Nat) (x : Core) : (s.setCore n x).stk = s.stk := rfl
@[simp] theorem State.setCore_upd (s : State) (n : Nat) (x : Core) : (s.setCore n x).upd = s.upd := rfl
@[simp] theorem State.setCore_lnk (s : State) (n : Nat) (x : Core) : (s.setCore n x).lnk = s.lnk := rfl
@[simp] theorem State.setCore_link (s : State) (n : Nat) (x : Core) : (s.setCore n x).link = s.link := rfl
@[simp] theorem State.setCore_clusters (s : State) (n : Nat) (x : Core) : (s.setCore n x).clusters = s.clusters := rfl
@[simp] theorem State.setCore_ful (s : State) (n : Nat) (x : Core) : (s.setCore n x).ful = s.ful := rfl
@[simp] theorem State.setCore_fulDie (s : State) (n : Nat) (x : Core) : (s.setCore n x).fulDie = s.fulDie := rfl
@[simp] theorem State.setCore_fctx (s : State) (n : Nat) (x : Core) : (s.setCore n x).fctx = s.fctx := rfl
@[simp] theorem State.setCore_ing (s : State) (n : Nat) (x : Core) : (s.setCore n x).ing = s.ing := rfl
@[simp] theorem State.setCore_cdc (s : State) (n : Nat) (x : Core) : (s.setCore n x).cdc = s.cdc := rfl
@[simp] theorem State.setCore_mem (s : State) (n : Nat) (x : Core) : (s.setCore n x).mem = s.mem := rfl
@[simp] theorem State.setCore_gens (s : State) (n : Nat) (x : Core) : (s.setCore n x).gens = s.gens := rfl
@[simp] theorem State.setCore_latches (s : State) (n : Nat) (x : Core) : (s.setCore n x).latches = s.latches := rfl
@[simp] theorem State.setCore_egress (s : State) (n : Nat) (x : Core) : (s.setCore n x).egress = s.egress := rfl
@[simp] theorem State.setCore_fresh (s : State) (n : Nat) (x : Core) : (s.setCore n x).fresh = s.fresh := rfl

/-! `State.setCluster` changes `clusters` alone. -/

@[simp] theorem State.setCluster_pending (s : State) (n : Nat) (x : Cluster) : (s.setCluster n x).pending = s.pending := rfl
@[simp] theorem State.setCluster_glb (s : State) (n : Nat) (x : Cluster) : (s.setCluster n x).glb = s.glb := rfl
@[simp] theorem State.setCluster_run (s : State) (n : Nat) (x : Cluster) : (s.setCluster n x).run = s.run := rfl
@[simp] theorem State.setCluster_pwr (s : State) (n : Nat) (x : Cluster) : (s.setCluster n x).pwr = s.pwr := rfl
@[simp] theorem State.setCluster_pst (s : State) (n : Nat) (x : Cluster) : (s.setCluster n x).pst = s.pst := rfl
@[simp] theorem State.setCluster_fw (s : State) (n : Nat) (x : Cluster) : (s.setCluster n x).fw = s.fw := rfl
@[simp] theorem State.setCluster_keys (s : State) (n : Nat) (x : Cluster) : (s.setCluster n x).keys = s.keys := rfl
@[simp] theorem State.setCluster_cip (s : State) (n : Nat) (x : Cluster) : (s.setCluster n x).cip = s.cip := rfl
@[simp] theorem State.setCluster_isx (s : State) (n : Nat) (x : Cluster) : (s.setCluster n x).isx = s.isx := rfl
@[simp] theorem State.setCluster_sess (s : State) (n : Nat) (x : Cluster) : (s.setCluster n x).sess = s.sess := rfl
@[simp] theorem State.setCluster_long (s : State) (n : Nat) (x : Cluster) : (s.setCluster n x).long = s.long := rfl
@[simp] theorem State.setCluster_eth (s : State) (n : Nat) (x : Cluster) : (s.setCluster n x).eth = s.eth := rfl
@[simp] theorem State.setCluster_spr (s : State) (n : Nat) (x : Cluster) : (s.setCluster n x).spr = s.spr := rfl
@[simp] theorem State.setCluster_stk (s : State) (n : Nat) (x : Cluster) : (s.setCluster n x).stk = s.stk := rfl
@[simp] theorem State.setCluster_upd (s : State) (n : Nat) (x : Cluster) : (s.setCluster n x).upd = s.upd := rfl
@[simp] theorem State.setCluster_lnk (s : State) (n : Nat) (x : Cluster) : (s.setCluster n x).lnk = s.lnk := rfl
@[simp] theorem State.setCluster_link (s : State) (n : Nat) (x : Cluster) : (s.setCluster n x).link = s.link := rfl
@[simp] theorem State.setCluster_cores (s : State) (n : Nat) (x : Cluster) : (s.setCluster n x).cores = s.cores := rfl
@[simp] theorem State.setCluster_ful (s : State) (n : Nat) (x : Cluster) : (s.setCluster n x).ful = s.ful := rfl
@[simp] theorem State.setCluster_fulDie (s : State) (n : Nat) (x : Cluster) : (s.setCluster n x).fulDie = s.fulDie := rfl
@[simp] theorem State.setCluster_fctx (s : State) (n : Nat) (x : Cluster) : (s.setCluster n x).fctx = s.fctx := rfl
@[simp] theorem State.setCluster_ing (s : State) (n : Nat) (x : Cluster) : (s.setCluster n x).ing = s.ing := rfl
@[simp] theorem State.setCluster_cdc (s : State) (n : Nat) (x : Cluster) : (s.setCluster n x).cdc = s.cdc := rfl
@[simp] theorem State.setCluster_mem (s : State) (n : Nat) (x : Cluster) : (s.setCluster n x).mem = s.mem := rfl
@[simp] theorem State.setCluster_gens (s : State) (n : Nat) (x : Cluster) : (s.setCluster n x).gens = s.gens := rfl
@[simp] theorem State.setCluster_latches (s : State) (n : Nat) (x : Cluster) : (s.setCluster n x).latches = s.latches := rfl
@[simp] theorem State.setCluster_egress (s : State) (n : Nat) (x : Cluster) : (s.setCluster n x).egress = s.egress := rfl
@[simp] theorem State.setCluster_fresh (s : State) (n : Nat) (x : Cluster) : (s.setCluster n x).fresh = s.fresh := rfl

/-! `State.modStack` changes `stk` alone. -/

@[simp] theorem State.modStack_pending (s : State) (n : Nat) (f : Stk → Stk) : (s.modStack n f).pending = s.pending := rfl
@[simp] theorem State.modStack_glb (s : State) (n : Nat) (f : Stk → Stk) : (s.modStack n f).glb = s.glb := rfl
@[simp] theorem State.modStack_run (s : State) (n : Nat) (f : Stk → Stk) : (s.modStack n f).run = s.run := rfl
@[simp] theorem State.modStack_pwr (s : State) (n : Nat) (f : Stk → Stk) : (s.modStack n f).pwr = s.pwr := rfl
@[simp] theorem State.modStack_pst (s : State) (n : Nat) (f : Stk → Stk) : (s.modStack n f).pst = s.pst := rfl
@[simp] theorem State.modStack_fw (s : State) (n : Nat) (f : Stk → Stk) : (s.modStack n f).fw = s.fw := rfl
@[simp] theorem State.modStack_keys (s : State) (n : Nat) (f : Stk → Stk) : (s.modStack n f).keys = s.keys := rfl
@[simp] theorem State.modStack_cip (s : State) (n : Nat) (f : Stk → Stk) : (s.modStack n f).cip = s.cip := rfl
@[simp] theorem State.modStack_isx (s : State) (n : Nat) (f : Stk → Stk) : (s.modStack n f).isx = s.isx := rfl
@[simp] theorem State.modStack_sess (s : State) (n : Nat) (f : Stk → Stk) : (s.modStack n f).sess = s.sess := rfl
@[simp] theorem State.modStack_long (s : State) (n : Nat) (f : Stk → Stk) : (s.modStack n f).long = s.long := rfl
@[simp] theorem State.modStack_eth (s : State) (n : Nat) (f : Stk → Stk) : (s.modStack n f).eth = s.eth := rfl
@[simp] theorem State.modStack_spr (s : State) (n : Nat) (f : Stk → Stk) : (s.modStack n f).spr = s.spr := rfl
@[simp] theorem State.modStack_upd (s : State) (n : Nat) (f : Stk → Stk) : (s.modStack n f).upd = s.upd := rfl
@[simp] theorem State.modStack_lnk (s : State) (n : Nat) (f : Stk → Stk) : (s.modStack n f).lnk = s.lnk := rfl
@[simp] theorem State.modStack_link (s : State) (n : Nat) (f : Stk → Stk) : (s.modStack n f).link = s.link := rfl
@[simp] theorem State.modStack_cores (s : State) (n : Nat) (f : Stk → Stk) : (s.modStack n f).cores = s.cores := rfl
@[simp] theorem State.modStack_clusters (s : State) (n : Nat) (f : Stk → Stk) : (s.modStack n f).clusters = s.clusters := rfl
@[simp] theorem State.modStack_ful (s : State) (n : Nat) (f : Stk → Stk) : (s.modStack n f).ful = s.ful := rfl
@[simp] theorem State.modStack_fulDie (s : State) (n : Nat) (f : Stk → Stk) : (s.modStack n f).fulDie = s.fulDie := rfl
@[simp] theorem State.modStack_fctx (s : State) (n : Nat) (f : Stk → Stk) : (s.modStack n f).fctx = s.fctx := rfl
@[simp] theorem State.modStack_ing (s : State) (n : Nat) (f : Stk → Stk) : (s.modStack n f).ing = s.ing := rfl
@[simp] theorem State.modStack_cdc (s : State) (n : Nat) (f : Stk → Stk) : (s.modStack n f).cdc = s.cdc := rfl
@[simp] theorem State.modStack_mem (s : State) (n : Nat) (f : Stk → Stk) : (s.modStack n f).mem = s.mem := rfl
@[simp] theorem State.modStack_gens (s : State) (n : Nat) (f : Stk → Stk) : (s.modStack n f).gens = s.gens := rfl
@[simp] theorem State.modStack_latches (s : State) (n : Nat) (f : Stk → Stk) : (s.modStack n f).latches = s.latches := rfl
@[simp] theorem State.modStack_egress (s : State) (n : Nat) (f : Stk → Stk) : (s.modStack n f).egress = s.egress := rfl
@[simp] theorem State.modStack_fresh (s : State) (n : Nat) (f : Stk → Stk) : (s.modStack n f).fresh = s.fresh := rfl

/-! `State.modUnit` changes `upd` alone. -/

@[simp] theorem State.modUnit_pending (s : State) (n : Nat) (f : UpdUnit → UpdUnit) : (s.modUnit n f).pending = s.pending := rfl
@[simp] theorem State.modUnit_glb (s : State) (n : Nat) (f : UpdUnit → UpdUnit) : (s.modUnit n f).glb = s.glb := rfl
@[simp] theorem State.modUnit_run (s : State) (n : Nat) (f : UpdUnit → UpdUnit) : (s.modUnit n f).run = s.run := rfl
@[simp] theorem State.modUnit_pwr (s : State) (n : Nat) (f : UpdUnit → UpdUnit) : (s.modUnit n f).pwr = s.pwr := rfl
@[simp] theorem State.modUnit_pst (s : State) (n : Nat) (f : UpdUnit → UpdUnit) : (s.modUnit n f).pst = s.pst := rfl
@[simp] theorem State.modUnit_fw (s : State) (n : Nat) (f : UpdUnit → UpdUnit) : (s.modUnit n f).fw = s.fw := rfl
@[simp] theorem State.modUnit_keys (s : State) (n : Nat) (f : UpdUnit → UpdUnit) : (s.modUnit n f).keys = s.keys := rfl
@[simp] theorem State.modUnit_cip (s : State) (n : Nat) (f : UpdUnit → UpdUnit) : (s.modUnit n f).cip = s.cip := rfl
@[simp] theorem State.modUnit_isx (s : State) (n : Nat) (f : UpdUnit → UpdUnit) : (s.modUnit n f).isx = s.isx := rfl
@[simp] theorem State.modUnit_sess (s : State) (n : Nat) (f : UpdUnit → UpdUnit) : (s.modUnit n f).sess = s.sess := rfl
@[simp] theorem State.modUnit_long (s : State) (n : Nat) (f : UpdUnit → UpdUnit) : (s.modUnit n f).long = s.long := rfl
@[simp] theorem State.modUnit_eth (s : State) (n : Nat) (f : UpdUnit → UpdUnit) : (s.modUnit n f).eth = s.eth := rfl
@[simp] theorem State.modUnit_spr (s : State) (n : Nat) (f : UpdUnit → UpdUnit) : (s.modUnit n f).spr = s.spr := rfl
@[simp] theorem State.modUnit_stk (s : State) (n : Nat) (f : UpdUnit → UpdUnit) : (s.modUnit n f).stk = s.stk := rfl
@[simp] theorem State.modUnit_lnk (s : State) (n : Nat) (f : UpdUnit → UpdUnit) : (s.modUnit n f).lnk = s.lnk := rfl
@[simp] theorem State.modUnit_link (s : State) (n : Nat) (f : UpdUnit → UpdUnit) : (s.modUnit n f).link = s.link := rfl
@[simp] theorem State.modUnit_cores (s : State) (n : Nat) (f : UpdUnit → UpdUnit) : (s.modUnit n f).cores = s.cores := rfl
@[simp] theorem State.modUnit_clusters (s : State) (n : Nat) (f : UpdUnit → UpdUnit) : (s.modUnit n f).clusters = s.clusters := rfl
@[simp] theorem State.modUnit_ful (s : State) (n : Nat) (f : UpdUnit → UpdUnit) : (s.modUnit n f).ful = s.ful := rfl
@[simp] theorem State.modUnit_fulDie (s : State) (n : Nat) (f : UpdUnit → UpdUnit) : (s.modUnit n f).fulDie = s.fulDie := rfl
@[simp] theorem State.modUnit_fctx (s : State) (n : Nat) (f : UpdUnit → UpdUnit) : (s.modUnit n f).fctx = s.fctx := rfl
@[simp] theorem State.modUnit_ing (s : State) (n : Nat) (f : UpdUnit → UpdUnit) : (s.modUnit n f).ing = s.ing := rfl
@[simp] theorem State.modUnit_cdc (s : State) (n : Nat) (f : UpdUnit → UpdUnit) : (s.modUnit n f).cdc = s.cdc := rfl
@[simp] theorem State.modUnit_mem (s : State) (n : Nat) (f : UpdUnit → UpdUnit) : (s.modUnit n f).mem = s.mem := rfl
@[simp] theorem State.modUnit_gens (s : State) (n : Nat) (f : UpdUnit → UpdUnit) : (s.modUnit n f).gens = s.gens := rfl
@[simp] theorem State.modUnit_latches (s : State) (n : Nat) (f : UpdUnit → UpdUnit) : (s.modUnit n f).latches = s.latches := rfl
@[simp] theorem State.modUnit_egress (s : State) (n : Nat) (f : UpdUnit → UpdUnit) : (s.modUnit n f).egress = s.egress := rfl
@[simp] theorem State.modUnit_fresh (s : State) (n : Nat) (f : UpdUnit → UpdUnit) : (s.modUnit n f).fresh = s.fresh := rfl

/-! `State.setPort` changes `link` alone. -/

@[simp] theorem State.setPort_pending (s : State) (n : Nat) (x : Link) : (s.setPort n x).pending = s.pending := rfl
@[simp] theorem State.setPort_glb (s : State) (n : Nat) (x : Link) : (s.setPort n x).glb = s.glb := rfl
@[simp] theorem State.setPort_run (s : State) (n : Nat) (x : Link) : (s.setPort n x).run = s.run := rfl
@[simp] theorem State.setPort_pwr (s : State) (n : Nat) (x : Link) : (s.setPort n x).pwr = s.pwr := rfl
@[simp] theorem State.setPort_pst (s : State) (n : Nat) (x : Link) : (s.setPort n x).pst = s.pst := rfl
@[simp] theorem State.setPort_fw (s : State) (n : Nat) (x : Link) : (s.setPort n x).fw = s.fw := rfl
@[simp] theorem State.setPort_keys (s : State) (n : Nat) (x : Link) : (s.setPort n x).keys = s.keys := rfl
@[simp] theorem State.setPort_cip (s : State) (n : Nat) (x : Link) : (s.setPort n x).cip = s.cip := rfl
@[simp] theorem State.setPort_isx (s : State) (n : Nat) (x : Link) : (s.setPort n x).isx = s.isx := rfl
@[simp] theorem State.setPort_sess (s : State) (n : Nat) (x : Link) : (s.setPort n x).sess = s.sess := rfl
@[simp] theorem State.setPort_long (s : State) (n : Nat) (x : Link) : (s.setPort n x).long = s.long := rfl
@[simp] theorem State.setPort_eth (s : State) (n : Nat) (x : Link) : (s.setPort n x).eth = s.eth := rfl
@[simp] theorem State.setPort_spr (s : State) (n : Nat) (x : Link) : (s.setPort n x).spr = s.spr := rfl
@[simp] theorem State.setPort_stk (s : State) (n : Nat) (x : Link) : (s.setPort n x).stk = s.stk := rfl
@[simp] theorem State.setPort_upd (s : State) (n : Nat) (x : Link) : (s.setPort n x).upd = s.upd := rfl
@[simp] theorem State.setPort_lnk (s : State) (n : Nat) (x : Link) : (s.setPort n x).lnk = s.lnk := rfl
@[simp] theorem State.setPort_cores (s : State) (n : Nat) (x : Link) : (s.setPort n x).cores = s.cores := rfl
@[simp] theorem State.setPort_clusters (s : State) (n : Nat) (x : Link) : (s.setPort n x).clusters = s.clusters := rfl
@[simp] theorem State.setPort_ful (s : State) (n : Nat) (x : Link) : (s.setPort n x).ful = s.ful := rfl
@[simp] theorem State.setPort_fulDie (s : State) (n : Nat) (x : Link) : (s.setPort n x).fulDie = s.fulDie := rfl
@[simp] theorem State.setPort_fctx (s : State) (n : Nat) (x : Link) : (s.setPort n x).fctx = s.fctx := rfl
@[simp] theorem State.setPort_ing (s : State) (n : Nat) (x : Link) : (s.setPort n x).ing = s.ing := rfl
@[simp] theorem State.setPort_cdc (s : State) (n : Nat) (x : Link) : (s.setPort n x).cdc = s.cdc := rfl
@[simp] theorem State.setPort_mem (s : State) (n : Nat) (x : Link) : (s.setPort n x).mem = s.mem := rfl
@[simp] theorem State.setPort_gens (s : State) (n : Nat) (x : Link) : (s.setPort n x).gens = s.gens := rfl
@[simp] theorem State.setPort_latches (s : State) (n : Nat) (x : Link) : (s.setPort n x).latches = s.latches := rfl
@[simp] theorem State.setPort_egress (s : State) (n : Nat) (x : Link) : (s.setPort n x).egress = s.egress := rfl
@[simp] theorem State.setPort_fresh (s : State) (n : Nat) (x : Link) : (s.setPort n x).fresh = s.fresh := rfl

/-! `State.setSession` changes `sess` alone. -/

@[simp] theorem State.setSession_pending (s : State) (n : Nat) (x : Sess) : (s.setSession n x).pending = s.pending := rfl
@[simp] theorem State.setSession_glb (s : State) (n : Nat) (x : Sess) : (s.setSession n x).glb = s.glb := rfl
@[simp] theorem State.setSession_run (s : State) (n : Nat) (x : Sess) : (s.setSession n x).run = s.run := rfl
@[simp] theorem State.setSession_pwr (s : State) (n : Nat) (x : Sess) : (s.setSession n x).pwr = s.pwr := rfl
@[simp] theorem State.setSession_pst (s : State) (n : Nat) (x : Sess) : (s.setSession n x).pst = s.pst := rfl
@[simp] theorem State.setSession_fw (s : State) (n : Nat) (x : Sess) : (s.setSession n x).fw = s.fw := rfl
@[simp] theorem State.setSession_keys (s : State) (n : Nat) (x : Sess) : (s.setSession n x).keys = s.keys := rfl
@[simp] theorem State.setSession_cip (s : State) (n : Nat) (x : Sess) : (s.setSession n x).cip = s.cip := rfl
@[simp] theorem State.setSession_isx (s : State) (n : Nat) (x : Sess) : (s.setSession n x).isx = s.isx := rfl
@[simp] theorem State.setSession_long (s : State) (n : Nat) (x : Sess) : (s.setSession n x).long = s.long := rfl
@[simp] theorem State.setSession_eth (s : State) (n : Nat) (x : Sess) : (s.setSession n x).eth = s.eth := rfl
@[simp] theorem State.setSession_spr (s : State) (n : Nat) (x : Sess) : (s.setSession n x).spr = s.spr := rfl
@[simp] theorem State.setSession_stk (s : State) (n : Nat) (x : Sess) : (s.setSession n x).stk = s.stk := rfl
@[simp] theorem State.setSession_upd (s : State) (n : Nat) (x : Sess) : (s.setSession n x).upd = s.upd := rfl
@[simp] theorem State.setSession_lnk (s : State) (n : Nat) (x : Sess) : (s.setSession n x).lnk = s.lnk := rfl
@[simp] theorem State.setSession_link (s : State) (n : Nat) (x : Sess) : (s.setSession n x).link = s.link := rfl
@[simp] theorem State.setSession_cores (s : State) (n : Nat) (x : Sess) : (s.setSession n x).cores = s.cores := rfl
@[simp] theorem State.setSession_clusters (s : State) (n : Nat) (x : Sess) : (s.setSession n x).clusters = s.clusters := rfl
@[simp] theorem State.setSession_ful (s : State) (n : Nat) (x : Sess) : (s.setSession n x).ful = s.ful := rfl
@[simp] theorem State.setSession_fulDie (s : State) (n : Nat) (x : Sess) : (s.setSession n x).fulDie = s.fulDie := rfl
@[simp] theorem State.setSession_fctx (s : State) (n : Nat) (x : Sess) : (s.setSession n x).fctx = s.fctx := rfl
@[simp] theorem State.setSession_ing (s : State) (n : Nat) (x : Sess) : (s.setSession n x).ing = s.ing := rfl
@[simp] theorem State.setSession_cdc (s : State) (n : Nat) (x : Sess) : (s.setSession n x).cdc = s.cdc := rfl
@[simp] theorem State.setSession_mem (s : State) (n : Nat) (x : Sess) : (s.setSession n x).mem = s.mem := rfl
@[simp] theorem State.setSession_gens (s : State) (n : Nat) (x : Sess) : (s.setSession n x).gens = s.gens := rfl
@[simp] theorem State.setSession_latches (s : State) (n : Nat) (x : Sess) : (s.setSession n x).latches = s.latches := rfl
@[simp] theorem State.setSession_egress (s : State) (n : Nat) (x : Sess) : (s.setSession n x).egress = s.egress := rfl
@[simp] theorem State.setSession_fresh (s : State) (n : Nat) (x : Sess) : (s.setSession n x).fresh = s.fresh := rfl

/-! `State.setFuelle` changes `fctx` alone. -/

@[simp] theorem State.setFuelle_pending (s : State) (n : Nat) (x : FulCtx) : (s.setFuelle n x).pending = s.pending := rfl
@[simp] theorem State.setFuelle_glb (s : State) (n : Nat) (x : FulCtx) : (s.setFuelle n x).glb = s.glb := rfl
@[simp] theorem State.setFuelle_run (s : State) (n : Nat) (x : FulCtx) : (s.setFuelle n x).run = s.run := rfl
@[simp] theorem State.setFuelle_pwr (s : State) (n : Nat) (x : FulCtx) : (s.setFuelle n x).pwr = s.pwr := rfl
@[simp] theorem State.setFuelle_pst (s : State) (n : Nat) (x : FulCtx) : (s.setFuelle n x).pst = s.pst := rfl
@[simp] theorem State.setFuelle_fw (s : State) (n : Nat) (x : FulCtx) : (s.setFuelle n x).fw = s.fw := rfl
@[simp] theorem State.setFuelle_keys (s : State) (n : Nat) (x : FulCtx) : (s.setFuelle n x).keys = s.keys := rfl
@[simp] theorem State.setFuelle_cip (s : State) (n : Nat) (x : FulCtx) : (s.setFuelle n x).cip = s.cip := rfl
@[simp] theorem State.setFuelle_isx (s : State) (n : Nat) (x : FulCtx) : (s.setFuelle n x).isx = s.isx := rfl
@[simp] theorem State.setFuelle_sess (s : State) (n : Nat) (x : FulCtx) : (s.setFuelle n x).sess = s.sess := rfl
@[simp] theorem State.setFuelle_long (s : State) (n : Nat) (x : FulCtx) : (s.setFuelle n x).long = s.long := rfl
@[simp] theorem State.setFuelle_eth (s : State) (n : Nat) (x : FulCtx) : (s.setFuelle n x).eth = s.eth := rfl
@[simp] theorem State.setFuelle_spr (s : State) (n : Nat) (x : FulCtx) : (s.setFuelle n x).spr = s.spr := rfl
@[simp] theorem State.setFuelle_stk (s : State) (n : Nat) (x : FulCtx) : (s.setFuelle n x).stk = s.stk := rfl
@[simp] theorem State.setFuelle_upd (s : State) (n : Nat) (x : FulCtx) : (s.setFuelle n x).upd = s.upd := rfl
@[simp] theorem State.setFuelle_lnk (s : State) (n : Nat) (x : FulCtx) : (s.setFuelle n x).lnk = s.lnk := rfl
@[simp] theorem State.setFuelle_link (s : State) (n : Nat) (x : FulCtx) : (s.setFuelle n x).link = s.link := rfl
@[simp] theorem State.setFuelle_cores (s : State) (n : Nat) (x : FulCtx) : (s.setFuelle n x).cores = s.cores := rfl
@[simp] theorem State.setFuelle_clusters (s : State) (n : Nat) (x : FulCtx) : (s.setFuelle n x).clusters = s.clusters := rfl
@[simp] theorem State.setFuelle_ful (s : State) (n : Nat) (x : FulCtx) : (s.setFuelle n x).ful = s.ful := rfl
@[simp] theorem State.setFuelle_fulDie (s : State) (n : Nat) (x : FulCtx) : (s.setFuelle n x).fulDie = s.fulDie := rfl
@[simp] theorem State.setFuelle_ing (s : State) (n : Nat) (x : FulCtx) : (s.setFuelle n x).ing = s.ing := rfl
@[simp] theorem State.setFuelle_cdc (s : State) (n : Nat) (x : FulCtx) : (s.setFuelle n x).cdc = s.cdc := rfl
@[simp] theorem State.setFuelle_mem (s : State) (n : Nat) (x : FulCtx) : (s.setFuelle n x).mem = s.mem := rfl
@[simp] theorem State.setFuelle_gens (s : State) (n : Nat) (x : FulCtx) : (s.setFuelle n x).gens = s.gens := rfl
@[simp] theorem State.setFuelle_latches (s : State) (n : Nat) (x : FulCtx) : (s.setFuelle n x).latches = s.latches := rfl
@[simp] theorem State.setFuelle_egress (s : State) (n : Nat) (x : FulCtx) : (s.setFuelle n x).egress = s.egress := rfl
@[simp] theorem State.setFuelle_fresh (s : State) (n : Nat) (x : FulCtx) : (s.setFuelle n x).fresh = s.fresh := rfl

/-! `State.modDie` changes `fulDie` alone. -/

@[simp] theorem State.modDie_pending (s : State) (n : Nat) (f : FulDie → FulDie) : (s.modDie n f).pending = s.pending := rfl
@[simp] theorem State.modDie_glb (s : State) (n : Nat) (f : FulDie → FulDie) : (s.modDie n f).glb = s.glb := rfl
@[simp] theorem State.modDie_run (s : State) (n : Nat) (f : FulDie → FulDie) : (s.modDie n f).run = s.run := rfl
@[simp] theorem State.modDie_pwr (s : State) (n : Nat) (f : FulDie → FulDie) : (s.modDie n f).pwr = s.pwr := rfl
@[simp] theorem State.modDie_pst (s : State) (n : Nat) (f : FulDie → FulDie) : (s.modDie n f).pst = s.pst := rfl
@[simp] theorem State.modDie_fw (s : State) (n : Nat) (f : FulDie → FulDie) : (s.modDie n f).fw = s.fw := rfl
@[simp] theorem State.modDie_keys (s : State) (n : Nat) (f : FulDie → FulDie) : (s.modDie n f).keys = s.keys := rfl
@[simp] theorem State.modDie_cip (s : State) (n : Nat) (f : FulDie → FulDie) : (s.modDie n f).cip = s.cip := rfl
@[simp] theorem State.modDie_isx (s : State) (n : Nat) (f : FulDie → FulDie) : (s.modDie n f).isx = s.isx := rfl
@[simp] theorem State.modDie_sess (s : State) (n : Nat) (f : FulDie → FulDie) : (s.modDie n f).sess = s.sess := rfl
@[simp] theorem State.modDie_long (s : State) (n : Nat) (f : FulDie → FulDie) : (s.modDie n f).long = s.long := rfl
@[simp] theorem State.modDie_eth (s : State) (n : Nat) (f : FulDie → FulDie) : (s.modDie n f).eth = s.eth := rfl
@[simp] theorem State.modDie_spr (s : State) (n : Nat) (f : FulDie → FulDie) : (s.modDie n f).spr = s.spr := rfl
@[simp] theorem State.modDie_stk (s : State) (n : Nat) (f : FulDie → FulDie) : (s.modDie n f).stk = s.stk := rfl
@[simp] theorem State.modDie_upd (s : State) (n : Nat) (f : FulDie → FulDie) : (s.modDie n f).upd = s.upd := rfl
@[simp] theorem State.modDie_lnk (s : State) (n : Nat) (f : FulDie → FulDie) : (s.modDie n f).lnk = s.lnk := rfl
@[simp] theorem State.modDie_link (s : State) (n : Nat) (f : FulDie → FulDie) : (s.modDie n f).link = s.link := rfl
@[simp] theorem State.modDie_cores (s : State) (n : Nat) (f : FulDie → FulDie) : (s.modDie n f).cores = s.cores := rfl
@[simp] theorem State.modDie_clusters (s : State) (n : Nat) (f : FulDie → FulDie) : (s.modDie n f).clusters = s.clusters := rfl
@[simp] theorem State.modDie_ful (s : State) (n : Nat) (f : FulDie → FulDie) : (s.modDie n f).ful = s.ful := rfl
@[simp] theorem State.modDie_fctx (s : State) (n : Nat) (f : FulDie → FulDie) : (s.modDie n f).fctx = s.fctx := rfl
@[simp] theorem State.modDie_ing (s : State) (n : Nat) (f : FulDie → FulDie) : (s.modDie n f).ing = s.ing := rfl
@[simp] theorem State.modDie_cdc (s : State) (n : Nat) (f : FulDie → FulDie) : (s.modDie n f).cdc = s.cdc := rfl
@[simp] theorem State.modDie_mem (s : State) (n : Nat) (f : FulDie → FulDie) : (s.modDie n f).mem = s.mem := rfl
@[simp] theorem State.modDie_gens (s : State) (n : Nat) (f : FulDie → FulDie) : (s.modDie n f).gens = s.gens := rfl
@[simp] theorem State.modDie_latches (s : State) (n : Nat) (f : FulDie → FulDie) : (s.modDie n f).latches = s.latches := rfl
@[simp] theorem State.modDie_egress (s : State) (n : Nat) (f : FulDie → FulDie) : (s.modDie n f).egress = s.egress := rfl
@[simp] theorem State.modDie_fresh (s : State) (n : Nat) (f : FulDie → FulDie) : (s.modDie n f).fresh = s.fresh := rfl

/-! `State.modEther` changes `eth` alone. -/

@[simp] theorem State.modEther_pending (s : State) (n : Nat) (f : Eth → Eth) : (s.modEther n f).pending = s.pending := rfl
@[simp] theorem State.modEther_glb (s : State) (n : Nat) (f : Eth → Eth) : (s.modEther n f).glb = s.glb := rfl
@[simp] theorem State.modEther_run (s : State) (n : Nat) (f : Eth → Eth) : (s.modEther n f).run = s.run := rfl
@[simp] theorem State.modEther_pwr (s : State) (n : Nat) (f : Eth → Eth) : (s.modEther n f).pwr = s.pwr := rfl
@[simp] theorem State.modEther_pst (s : State) (n : Nat) (f : Eth → Eth) : (s.modEther n f).pst = s.pst := rfl
@[simp] theorem State.modEther_fw (s : State) (n : Nat) (f : Eth → Eth) : (s.modEther n f).fw = s.fw := rfl
@[simp] theorem State.modEther_keys (s : State) (n : Nat) (f : Eth → Eth) : (s.modEther n f).keys = s.keys := rfl
@[simp] theorem State.modEther_cip (s : State) (n : Nat) (f : Eth → Eth) : (s.modEther n f).cip = s.cip := rfl
@[simp] theorem State.modEther_isx (s : State) (n : Nat) (f : Eth → Eth) : (s.modEther n f).isx = s.isx := rfl
@[simp] theorem State.modEther_sess (s : State) (n : Nat) (f : Eth → Eth) : (s.modEther n f).sess = s.sess := rfl
@[simp] theorem State.modEther_long (s : State) (n : Nat) (f : Eth → Eth) : (s.modEther n f).long = s.long := rfl
@[simp] theorem State.modEther_spr (s : State) (n : Nat) (f : Eth → Eth) : (s.modEther n f).spr = s.spr := rfl
@[simp] theorem State.modEther_stk (s : State) (n : Nat) (f : Eth → Eth) : (s.modEther n f).stk = s.stk := rfl
@[simp] theorem State.modEther_upd (s : State) (n : Nat) (f : Eth → Eth) : (s.modEther n f).upd = s.upd := rfl
@[simp] theorem State.modEther_lnk (s : State) (n : Nat) (f : Eth → Eth) : (s.modEther n f).lnk = s.lnk := rfl
@[simp] theorem State.modEther_link (s : State) (n : Nat) (f : Eth → Eth) : (s.modEther n f).link = s.link := rfl
@[simp] theorem State.modEther_cores (s : State) (n : Nat) (f : Eth → Eth) : (s.modEther n f).cores = s.cores := rfl
@[simp] theorem State.modEther_clusters (s : State) (n : Nat) (f : Eth → Eth) : (s.modEther n f).clusters = s.clusters := rfl
@[simp] theorem State.modEther_ful (s : State) (n : Nat) (f : Eth → Eth) : (s.modEther n f).ful = s.ful := rfl
@[simp] theorem State.modEther_fulDie (s : State) (n : Nat) (f : Eth → Eth) : (s.modEther n f).fulDie = s.fulDie := rfl
@[simp] theorem State.modEther_fctx (s : State) (n : Nat) (f : Eth → Eth) : (s.modEther n f).fctx = s.fctx := rfl
@[simp] theorem State.modEther_ing (s : State) (n : Nat) (f : Eth → Eth) : (s.modEther n f).ing = s.ing := rfl
@[simp] theorem State.modEther_cdc (s : State) (n : Nat) (f : Eth → Eth) : (s.modEther n f).cdc = s.cdc := rfl
@[simp] theorem State.modEther_mem (s : State) (n : Nat) (f : Eth → Eth) : (s.modEther n f).mem = s.mem := rfl
@[simp] theorem State.modEther_gens (s : State) (n : Nat) (f : Eth → Eth) : (s.modEther n f).gens = s.gens := rfl
@[simp] theorem State.modEther_latches (s : State) (n : Nat) (f : Eth → Eth) : (s.modEther n f).latches = s.latches := rfl
@[simp] theorem State.modEther_egress (s : State) (n : Nat) (f : Eth → Eth) : (s.modEther n f).egress = s.egress := rfl
@[simp] theorem State.modEther_fresh (s : State) (n : Nat) (f : Eth → Eth) : (s.modEther n f).fresh = s.fresh := rfl

/-! `State.modCipher` changes `cip` alone. -/

@[simp] theorem State.modCipher_pending (s : State) (n : Nat) (f : Cip → Cip) : (s.modCipher n f).pending = s.pending := rfl
@[simp] theorem State.modCipher_glb (s : State) (n : Nat) (f : Cip → Cip) : (s.modCipher n f).glb = s.glb := rfl
@[simp] theorem State.modCipher_run (s : State) (n : Nat) (f : Cip → Cip) : (s.modCipher n f).run = s.run := rfl
@[simp] theorem State.modCipher_pwr (s : State) (n : Nat) (f : Cip → Cip) : (s.modCipher n f).pwr = s.pwr := rfl
@[simp] theorem State.modCipher_pst (s : State) (n : Nat) (f : Cip → Cip) : (s.modCipher n f).pst = s.pst := rfl
@[simp] theorem State.modCipher_fw (s : State) (n : Nat) (f : Cip → Cip) : (s.modCipher n f).fw = s.fw := rfl
@[simp] theorem State.modCipher_keys (s : State) (n : Nat) (f : Cip → Cip) : (s.modCipher n f).keys = s.keys := rfl
@[simp] theorem State.modCipher_isx (s : State) (n : Nat) (f : Cip → Cip) : (s.modCipher n f).isx = s.isx := rfl
@[simp] theorem State.modCipher_sess (s : State) (n : Nat) (f : Cip → Cip) : (s.modCipher n f).sess = s.sess := rfl
@[simp] theorem State.modCipher_long (s : State) (n : Nat) (f : Cip → Cip) : (s.modCipher n f).long = s.long := rfl
@[simp] theorem State.modCipher_eth (s : State) (n : Nat) (f : Cip → Cip) : (s.modCipher n f).eth = s.eth := rfl
@[simp] theorem State.modCipher_spr (s : State) (n : Nat) (f : Cip → Cip) : (s.modCipher n f).spr = s.spr := rfl
@[simp] theorem State.modCipher_stk (s : State) (n : Nat) (f : Cip → Cip) : (s.modCipher n f).stk = s.stk := rfl
@[simp] theorem State.modCipher_upd (s : State) (n : Nat) (f : Cip → Cip) : (s.modCipher n f).upd = s.upd := rfl
@[simp] theorem State.modCipher_lnk (s : State) (n : Nat) (f : Cip → Cip) : (s.modCipher n f).lnk = s.lnk := rfl
@[simp] theorem State.modCipher_link (s : State) (n : Nat) (f : Cip → Cip) : (s.modCipher n f).link = s.link := rfl
@[simp] theorem State.modCipher_cores (s : State) (n : Nat) (f : Cip → Cip) : (s.modCipher n f).cores = s.cores := rfl
@[simp] theorem State.modCipher_clusters (s : State) (n : Nat) (f : Cip → Cip) : (s.modCipher n f).clusters = s.clusters := rfl
@[simp] theorem State.modCipher_ful (s : State) (n : Nat) (f : Cip → Cip) : (s.modCipher n f).ful = s.ful := rfl
@[simp] theorem State.modCipher_fulDie (s : State) (n : Nat) (f : Cip → Cip) : (s.modCipher n f).fulDie = s.fulDie := rfl
@[simp] theorem State.modCipher_fctx (s : State) (n : Nat) (f : Cip → Cip) : (s.modCipher n f).fctx = s.fctx := rfl
@[simp] theorem State.modCipher_ing (s : State) (n : Nat) (f : Cip → Cip) : (s.modCipher n f).ing = s.ing := rfl
@[simp] theorem State.modCipher_cdc (s : State) (n : Nat) (f : Cip → Cip) : (s.modCipher n f).cdc = s.cdc := rfl
@[simp] theorem State.modCipher_mem (s : State) (n : Nat) (f : Cip → Cip) : (s.modCipher n f).mem = s.mem := rfl
@[simp] theorem State.modCipher_gens (s : State) (n : Nat) (f : Cip → Cip) : (s.modCipher n f).gens = s.gens := rfl
@[simp] theorem State.modCipher_latches (s : State) (n : Nat) (f : Cip → Cip) : (s.modCipher n f).latches = s.latches := rfl
@[simp] theorem State.modCipher_egress (s : State) (n : Nat) (f : Cip → Cip) : (s.modCipher n f).egress = s.egress := rfl
@[simp] theorem State.modCipher_fresh (s : State) (n : Nat) (f : Cip → Cip) : (s.modCipher n f).fresh = s.fresh := rfl

/-! `State.modStream` changes `ing` alone. -/

@[simp] theorem State.modStream_pending (s : State) (n : Nat) (f : IngStream → IngStream) : (s.modStream n f).pending = s.pending := rfl
@[simp] theorem State.modStream_glb (s : State) (n : Nat) (f : IngStream → IngStream) : (s.modStream n f).glb = s.glb := rfl
@[simp] theorem State.modStream_run (s : State) (n : Nat) (f : IngStream → IngStream) : (s.modStream n f).run = s.run := rfl
@[simp] theorem State.modStream_pwr (s : State) (n : Nat) (f : IngStream → IngStream) : (s.modStream n f).pwr = s.pwr := rfl
@[simp] theorem State.modStream_pst (s : State) (n : Nat) (f : IngStream → IngStream) : (s.modStream n f).pst = s.pst := rfl
@[simp] theorem State.modStream_fw (s : State) (n : Nat) (f : IngStream → IngStream) : (s.modStream n f).fw = s.fw := rfl
@[simp] theorem State.modStream_keys (s : State) (n : Nat) (f : IngStream → IngStream) : (s.modStream n f).keys = s.keys := rfl
@[simp] theorem State.modStream_cip (s : State) (n : Nat) (f : IngStream → IngStream) : (s.modStream n f).cip = s.cip := rfl
@[simp] theorem State.modStream_isx (s : State) (n : Nat) (f : IngStream → IngStream) : (s.modStream n f).isx = s.isx := rfl
@[simp] theorem State.modStream_sess (s : State) (n : Nat) (f : IngStream → IngStream) : (s.modStream n f).sess = s.sess := rfl
@[simp] theorem State.modStream_long (s : State) (n : Nat) (f : IngStream → IngStream) : (s.modStream n f).long = s.long := rfl
@[simp] theorem State.modStream_eth (s : State) (n : Nat) (f : IngStream → IngStream) : (s.modStream n f).eth = s.eth := rfl
@[simp] theorem State.modStream_spr (s : State) (n : Nat) (f : IngStream → IngStream) : (s.modStream n f).spr = s.spr := rfl
@[simp] theorem State.modStream_stk (s : State) (n : Nat) (f : IngStream → IngStream) : (s.modStream n f).stk = s.stk := rfl
@[simp] theorem State.modStream_upd (s : State) (n : Nat) (f : IngStream → IngStream) : (s.modStream n f).upd = s.upd := rfl
@[simp] theorem State.modStream_lnk (s : State) (n : Nat) (f : IngStream → IngStream) : (s.modStream n f).lnk = s.lnk := rfl
@[simp] theorem State.modStream_link (s : State) (n : Nat) (f : IngStream → IngStream) : (s.modStream n f).link = s.link := rfl
@[simp] theorem State.modStream_cores (s : State) (n : Nat) (f : IngStream → IngStream) : (s.modStream n f).cores = s.cores := rfl
@[simp] theorem State.modStream_clusters (s : State) (n : Nat) (f : IngStream → IngStream) : (s.modStream n f).clusters = s.clusters := rfl
@[simp] theorem State.modStream_ful (s : State) (n : Nat) (f : IngStream → IngStream) : (s.modStream n f).ful = s.ful := rfl
@[simp] theorem State.modStream_fulDie (s : State) (n : Nat) (f : IngStream → IngStream) : (s.modStream n f).fulDie = s.fulDie := rfl
@[simp] theorem State.modStream_fctx (s : State) (n : Nat) (f : IngStream → IngStream) : (s.modStream n f).fctx = s.fctx := rfl
@[simp] theorem State.modStream_cdc (s : State) (n : Nat) (f : IngStream → IngStream) : (s.modStream n f).cdc = s.cdc := rfl
@[simp] theorem State.modStream_mem (s : State) (n : Nat) (f : IngStream → IngStream) : (s.modStream n f).mem = s.mem := rfl
@[simp] theorem State.modStream_gens (s : State) (n : Nat) (f : IngStream → IngStream) : (s.modStream n f).gens = s.gens := rfl
@[simp] theorem State.modStream_latches (s : State) (n : Nat) (f : IngStream → IngStream) : (s.modStream n f).latches = s.latches := rfl
@[simp] theorem State.modStream_egress (s : State) (n : Nat) (f : IngStream → IngStream) : (s.modStream n f).egress = s.egress := rfl
@[simp] theorem State.modStream_fresh (s : State) (n : Nat) (f : IngStream → IngStream) : (s.modStream n f).fresh = s.fresh := rfl

/-! `State.ticket` changes `fresh` alone. -/

@[simp] theorem State.ticket_pending (s : State) : (s.ticket).pending = s.pending := rfl
@[simp] theorem State.ticket_glb (s : State) : (s.ticket).glb = s.glb := rfl
@[simp] theorem State.ticket_run (s : State) : (s.ticket).run = s.run := rfl
@[simp] theorem State.ticket_pwr (s : State) : (s.ticket).pwr = s.pwr := rfl
@[simp] theorem State.ticket_pst (s : State) : (s.ticket).pst = s.pst := rfl
@[simp] theorem State.ticket_fw (s : State) : (s.ticket).fw = s.fw := rfl
@[simp] theorem State.ticket_keys (s : State) : (s.ticket).keys = s.keys := rfl
@[simp] theorem State.ticket_cip (s : State) : (s.ticket).cip = s.cip := rfl
@[simp] theorem State.ticket_isx (s : State) : (s.ticket).isx = s.isx := rfl
@[simp] theorem State.ticket_sess (s : State) : (s.ticket).sess = s.sess := rfl
@[simp] theorem State.ticket_long (s : State) : (s.ticket).long = s.long := rfl
@[simp] theorem State.ticket_eth (s : State) : (s.ticket).eth = s.eth := rfl
@[simp] theorem State.ticket_spr (s : State) : (s.ticket).spr = s.spr := rfl
@[simp] theorem State.ticket_stk (s : State) : (s.ticket).stk = s.stk := rfl
@[simp] theorem State.ticket_upd (s : State) : (s.ticket).upd = s.upd := rfl
@[simp] theorem State.ticket_lnk (s : State) : (s.ticket).lnk = s.lnk := rfl
@[simp] theorem State.ticket_link (s : State) : (s.ticket).link = s.link := rfl
@[simp] theorem State.ticket_cores (s : State) : (s.ticket).cores = s.cores := rfl
@[simp] theorem State.ticket_clusters (s : State) : (s.ticket).clusters = s.clusters := rfl
@[simp] theorem State.ticket_ful (s : State) : (s.ticket).ful = s.ful := rfl
@[simp] theorem State.ticket_fulDie (s : State) : (s.ticket).fulDie = s.fulDie := rfl
@[simp] theorem State.ticket_fctx (s : State) : (s.ticket).fctx = s.fctx := rfl
@[simp] theorem State.ticket_ing (s : State) : (s.ticket).ing = s.ing := rfl
@[simp] theorem State.ticket_cdc (s : State) : (s.ticket).cdc = s.cdc := rfl
@[simp] theorem State.ticket_mem (s : State) : (s.ticket).mem = s.mem := rfl
@[simp] theorem State.ticket_gens (s : State) : (s.ticket).gens = s.gens := rfl
@[simp] theorem State.ticket_latches (s : State) : (s.ticket).latches = s.latches := rfl
@[simp] theorem State.ticket_egress (s : State) : (s.ticket).egress = s.egress := rfl

/-! `State.modCore` changes `cores` alone. -/

@[simp] theorem State.modCore_pending (s : State) (n : Nat) (f : Core → Core) : (s.modCore n f).pending = s.pending := rfl
@[simp] theorem State.modCore_glb (s : State) (n : Nat) (f : Core → Core) : (s.modCore n f).glb = s.glb := rfl
@[simp] theorem State.modCore_run (s : State) (n : Nat) (f : Core → Core) : (s.modCore n f).run = s.run := rfl
@[simp] theorem State.modCore_pwr (s : State) (n : Nat) (f : Core → Core) : (s.modCore n f).pwr = s.pwr := rfl
@[simp] theorem State.modCore_pst (s : State) (n : Nat) (f : Core → Core) : (s.modCore n f).pst = s.pst := rfl
@[simp] theorem State.modCore_fw (s : State) (n : Nat) (f : Core → Core) : (s.modCore n f).fw = s.fw := rfl
@[simp] theorem State.modCore_keys (s : State) (n : Nat) (f : Core → Core) : (s.modCore n f).keys = s.keys := rfl
@[simp] theorem State.modCore_cip (s : State) (n : Nat) (f : Core → Core) : (s.modCore n f).cip = s.cip := rfl
@[simp] theorem State.modCore_isx (s : State) (n : Nat) (f : Core → Core) : (s.modCore n f).isx = s.isx := rfl
@[simp] theorem State.modCore_sess (s : State) (n : Nat) (f : Core → Core) : (s.modCore n f).sess = s.sess := rfl
@[simp] theorem State.modCore_long (s : State) (n : Nat) (f : Core → Core) : (s.modCore n f).long = s.long := rfl
@[simp] theorem State.modCore_eth (s : State) (n : Nat) (f : Core → Core) : (s.modCore n f).eth = s.eth := rfl
@[simp] theorem State.modCore_spr (s : State) (n : Nat) (f : Core → Core) : (s.modCore n f).spr = s.spr := rfl
@[simp] theorem State.modCore_stk (s : State) (n : Nat) (f : Core → Core) : (s.modCore n f).stk = s.stk := rfl
@[simp] theorem State.modCore_upd (s : State) (n : Nat) (f : Core → Core) : (s.modCore n f).upd = s.upd := rfl
@[simp] theorem State.modCore_lnk (s : State) (n : Nat) (f : Core → Core) : (s.modCore n f).lnk = s.lnk := rfl
@[simp] theorem State.modCore_link (s : State) (n : Nat) (f : Core → Core) : (s.modCore n f).link = s.link := rfl
@[simp] theorem State.modCore_clusters (s : State) (n : Nat) (f : Core → Core) : (s.modCore n f).clusters = s.clusters := rfl
@[simp] theorem State.modCore_ful (s : State) (n : Nat) (f : Core → Core) : (s.modCore n f).ful = s.ful := rfl
@[simp] theorem State.modCore_fulDie (s : State) (n : Nat) (f : Core → Core) : (s.modCore n f).fulDie = s.fulDie := rfl
@[simp] theorem State.modCore_fctx (s : State) (n : Nat) (f : Core → Core) : (s.modCore n f).fctx = s.fctx := rfl
@[simp] theorem State.modCore_ing (s : State) (n : Nat) (f : Core → Core) : (s.modCore n f).ing = s.ing := rfl
@[simp] theorem State.modCore_cdc (s : State) (n : Nat) (f : Core → Core) : (s.modCore n f).cdc = s.cdc := rfl
@[simp] theorem State.modCore_mem (s : State) (n : Nat) (f : Core → Core) : (s.modCore n f).mem = s.mem := rfl
@[simp] theorem State.modCore_gens (s : State) (n : Nat) (f : Core → Core) : (s.modCore n f).gens = s.gens := rfl
@[simp] theorem State.modCore_latches (s : State) (n : Nat) (f : Core → Core) : (s.modCore n f).latches = s.latches := rfl
@[simp] theorem State.modCore_egress (s : State) (n : Nat) (f : Core → Core) : (s.modCore n f).egress = s.egress := rfl
@[simp] theorem State.modCore_fresh (s : State) (n : Nat) (f : Core → Core) : (s.modCore n f).fresh = s.fresh := rfl

/-! `State.modCluster` changes `clusters` alone. -/

@[simp] theorem State.modCluster_pending (s : State) (n : Nat) (f : Cluster → Cluster) : (s.modCluster n f).pending = s.pending := rfl
@[simp] theorem State.modCluster_glb (s : State) (n : Nat) (f : Cluster → Cluster) : (s.modCluster n f).glb = s.glb := rfl
@[simp] theorem State.modCluster_run (s : State) (n : Nat) (f : Cluster → Cluster) : (s.modCluster n f).run = s.run := rfl
@[simp] theorem State.modCluster_pwr (s : State) (n : Nat) (f : Cluster → Cluster) : (s.modCluster n f).pwr = s.pwr := rfl
@[simp] theorem State.modCluster_pst (s : State) (n : Nat) (f : Cluster → Cluster) : (s.modCluster n f).pst = s.pst := rfl
@[simp] theorem State.modCluster_fw (s : State) (n : Nat) (f : Cluster → Cluster) : (s.modCluster n f).fw = s.fw := rfl
@[simp] theorem State.modCluster_keys (s : State) (n : Nat) (f : Cluster → Cluster) : (s.modCluster n f).keys = s.keys := rfl
@[simp] theorem State.modCluster_cip (s : State) (n : Nat) (f : Cluster → Cluster) : (s.modCluster n f).cip = s.cip := rfl
@[simp] theorem State.modCluster_isx (s : State) (n : Nat) (f : Cluster → Cluster) : (s.modCluster n f).isx = s.isx := rfl
@[simp] theorem State.modCluster_sess (s : State) (n : Nat) (f : Cluster → Cluster) : (s.modCluster n f).sess = s.sess := rfl
@[simp] theorem State.modCluster_long (s : State) (n : Nat) (f : Cluster → Cluster) : (s.modCluster n f).long = s.long := rfl
@[simp] theorem State.modCluster_eth (s : State) (n : Nat) (f : Cluster → Cluster) : (s.modCluster n f).eth = s.eth := rfl
@[simp] theorem State.modCluster_spr (s : State) (n : Nat) (f : Cluster → Cluster) : (s.modCluster n f).spr = s.spr := rfl
@[simp] theorem State.modCluster_stk (s : State) (n : Nat) (f : Cluster → Cluster) : (s.modCluster n f).stk = s.stk := rfl
@[simp] theorem State.modCluster_upd (s : State) (n : Nat) (f : Cluster → Cluster) : (s.modCluster n f).upd = s.upd := rfl
@[simp] theorem State.modCluster_lnk (s : State) (n : Nat) (f : Cluster → Cluster) : (s.modCluster n f).lnk = s.lnk := rfl
@[simp] theorem State.modCluster_link (s : State) (n : Nat) (f : Cluster → Cluster) : (s.modCluster n f).link = s.link := rfl
@[simp] theorem State.modCluster_cores (s : State) (n : Nat) (f : Cluster → Cluster) : (s.modCluster n f).cores = s.cores := rfl
@[simp] theorem State.modCluster_ful (s : State) (n : Nat) (f : Cluster → Cluster) : (s.modCluster n f).ful = s.ful := rfl
@[simp] theorem State.modCluster_fulDie (s : State) (n : Nat) (f : Cluster → Cluster) : (s.modCluster n f).fulDie = s.fulDie := rfl
@[simp] theorem State.modCluster_fctx (s : State) (n : Nat) (f : Cluster → Cluster) : (s.modCluster n f).fctx = s.fctx := rfl
@[simp] theorem State.modCluster_ing (s : State) (n : Nat) (f : Cluster → Cluster) : (s.modCluster n f).ing = s.ing := rfl
@[simp] theorem State.modCluster_cdc (s : State) (n : Nat) (f : Cluster → Cluster) : (s.modCluster n f).cdc = s.cdc := rfl
@[simp] theorem State.modCluster_mem (s : State) (n : Nat) (f : Cluster → Cluster) : (s.modCluster n f).mem = s.mem := rfl
@[simp] theorem State.modCluster_gens (s : State) (n : Nat) (f : Cluster → Cluster) : (s.modCluster n f).gens = s.gens := rfl
@[simp] theorem State.modCluster_latches (s : State) (n : Nat) (f : Cluster → Cluster) : (s.modCluster n f).latches = s.latches := rfl
@[simp] theorem State.modCluster_egress (s : State) (n : Nat) (f : Cluster → Cluster) : (s.modCluster n f).egress = s.egress := rfl
@[simp] theorem State.modCluster_fresh (s : State) (n : Nat) (f : Cluster → Cluster) : (s.modCluster n f).fresh = s.fresh := rfl

/-! `State.modPort` changes `link` alone. -/

@[simp] theorem State.modPort_pending (s : State) (n : Nat) (f : Link → Link) : (s.modPort n f).pending = s.pending := rfl
@[simp] theorem State.modPort_glb (s : State) (n : Nat) (f : Link → Link) : (s.modPort n f).glb = s.glb := rfl
@[simp] theorem State.modPort_run (s : State) (n : Nat) (f : Link → Link) : (s.modPort n f).run = s.run := rfl
@[simp] theorem State.modPort_pwr (s : State) (n : Nat) (f : Link → Link) : (s.modPort n f).pwr = s.pwr := rfl
@[simp] theorem State.modPort_pst (s : State) (n : Nat) (f : Link → Link) : (s.modPort n f).pst = s.pst := rfl
@[simp] theorem State.modPort_fw (s : State) (n : Nat) (f : Link → Link) : (s.modPort n f).fw = s.fw := rfl
@[simp] theorem State.modPort_keys (s : State) (n : Nat) (f : Link → Link) : (s.modPort n f).keys = s.keys := rfl
@[simp] theorem State.modPort_cip (s : State) (n : Nat) (f : Link → Link) : (s.modPort n f).cip = s.cip := rfl
@[simp] theorem State.modPort_isx (s : State) (n : Nat) (f : Link → Link) : (s.modPort n f).isx = s.isx := rfl
@[simp] theorem State.modPort_sess (s : State) (n : Nat) (f : Link → Link) : (s.modPort n f).sess = s.sess := rfl
@[simp] theorem State.modPort_long (s : State) (n : Nat) (f : Link → Link) : (s.modPort n f).long = s.long := rfl
@[simp] theorem State.modPort_eth (s : State) (n : Nat) (f : Link → Link) : (s.modPort n f).eth = s.eth := rfl
@[simp] theorem State.modPort_spr (s : State) (n : Nat) (f : Link → Link) : (s.modPort n f).spr = s.spr := rfl
@[simp] theorem State.modPort_stk (s : State) (n : Nat) (f : Link → Link) : (s.modPort n f).stk = s.stk := rfl
@[simp] theorem State.modPort_upd (s : State) (n : Nat) (f : Link → Link) : (s.modPort n f).upd = s.upd := rfl
@[simp] theorem State.modPort_lnk (s : State) (n : Nat) (f : Link → Link) : (s.modPort n f).lnk = s.lnk := rfl
@[simp] theorem State.modPort_cores (s : State) (n : Nat) (f : Link → Link) : (s.modPort n f).cores = s.cores := rfl
@[simp] theorem State.modPort_clusters (s : State) (n : Nat) (f : Link → Link) : (s.modPort n f).clusters = s.clusters := rfl
@[simp] theorem State.modPort_ful (s : State) (n : Nat) (f : Link → Link) : (s.modPort n f).ful = s.ful := rfl
@[simp] theorem State.modPort_fulDie (s : State) (n : Nat) (f : Link → Link) : (s.modPort n f).fulDie = s.fulDie := rfl
@[simp] theorem State.modPort_fctx (s : State) (n : Nat) (f : Link → Link) : (s.modPort n f).fctx = s.fctx := rfl
@[simp] theorem State.modPort_ing (s : State) (n : Nat) (f : Link → Link) : (s.modPort n f).ing = s.ing := rfl
@[simp] theorem State.modPort_cdc (s : State) (n : Nat) (f : Link → Link) : (s.modPort n f).cdc = s.cdc := rfl
@[simp] theorem State.modPort_mem (s : State) (n : Nat) (f : Link → Link) : (s.modPort n f).mem = s.mem := rfl
@[simp] theorem State.modPort_gens (s : State) (n : Nat) (f : Link → Link) : (s.modPort n f).gens = s.gens := rfl
@[simp] theorem State.modPort_latches (s : State) (n : Nat) (f : Link → Link) : (s.modPort n f).latches = s.latches := rfl
@[simp] theorem State.modPort_egress (s : State) (n : Nat) (f : Link → Link) : (s.modPort n f).egress = s.egress := rfl
@[simp] theorem State.modPort_fresh (s : State) (n : Nat) (f : Link → Link) : (s.modPort n f).fresh = s.fresh := rfl

/-! `State.modFuelle` changes `fctx` alone. -/

@[simp] theorem State.modFuelle_pending (s : State) (n : Nat) (f : FulCtx → FulCtx) : (s.modFuelle n f).pending = s.pending := rfl
@[simp] theorem State.modFuelle_glb (s : State) (n : Nat) (f : FulCtx → FulCtx) : (s.modFuelle n f).glb = s.glb := rfl
@[simp] theorem State.modFuelle_run (s : State) (n : Nat) (f : FulCtx → FulCtx) : (s.modFuelle n f).run = s.run := rfl
@[simp] theorem State.modFuelle_pwr (s : State) (n : Nat) (f : FulCtx → FulCtx) : (s.modFuelle n f).pwr = s.pwr := rfl
@[simp] theorem State.modFuelle_pst (s : State) (n : Nat) (f : FulCtx → FulCtx) : (s.modFuelle n f).pst = s.pst := rfl
@[simp] theorem State.modFuelle_fw (s : State) (n : Nat) (f : FulCtx → FulCtx) : (s.modFuelle n f).fw = s.fw := rfl
@[simp] theorem State.modFuelle_keys (s : State) (n : Nat) (f : FulCtx → FulCtx) : (s.modFuelle n f).keys = s.keys := rfl
@[simp] theorem State.modFuelle_cip (s : State) (n : Nat) (f : FulCtx → FulCtx) : (s.modFuelle n f).cip = s.cip := rfl
@[simp] theorem State.modFuelle_isx (s : State) (n : Nat) (f : FulCtx → FulCtx) : (s.modFuelle n f).isx = s.isx := rfl
@[simp] theorem State.modFuelle_sess (s : State) (n : Nat) (f : FulCtx → FulCtx) : (s.modFuelle n f).sess = s.sess := rfl
@[simp] theorem State.modFuelle_long (s : State) (n : Nat) (f : FulCtx → FulCtx) : (s.modFuelle n f).long = s.long := rfl
@[simp] theorem State.modFuelle_eth (s : State) (n : Nat) (f : FulCtx → FulCtx) : (s.modFuelle n f).eth = s.eth := rfl
@[simp] theorem State.modFuelle_spr (s : State) (n : Nat) (f : FulCtx → FulCtx) : (s.modFuelle n f).spr = s.spr := rfl
@[simp] theorem State.modFuelle_stk (s : State) (n : Nat) (f : FulCtx → FulCtx) : (s.modFuelle n f).stk = s.stk := rfl
@[simp] theorem State.modFuelle_upd (s : State) (n : Nat) (f : FulCtx → FulCtx) : (s.modFuelle n f).upd = s.upd := rfl
@[simp] theorem State.modFuelle_lnk (s : State) (n : Nat) (f : FulCtx → FulCtx) : (s.modFuelle n f).lnk = s.lnk := rfl
@[simp] theorem State.modFuelle_link (s : State) (n : Nat) (f : FulCtx → FulCtx) : (s.modFuelle n f).link = s.link := rfl
@[simp] theorem State.modFuelle_cores (s : State) (n : Nat) (f : FulCtx → FulCtx) : (s.modFuelle n f).cores = s.cores := rfl
@[simp] theorem State.modFuelle_clusters (s : State) (n : Nat) (f : FulCtx → FulCtx) : (s.modFuelle n f).clusters = s.clusters := rfl
@[simp] theorem State.modFuelle_ful (s : State) (n : Nat) (f : FulCtx → FulCtx) : (s.modFuelle n f).ful = s.ful := rfl
@[simp] theorem State.modFuelle_fulDie (s : State) (n : Nat) (f : FulCtx → FulCtx) : (s.modFuelle n f).fulDie = s.fulDie := rfl
@[simp] theorem State.modFuelle_ing (s : State) (n : Nat) (f : FulCtx → FulCtx) : (s.modFuelle n f).ing = s.ing := rfl
@[simp] theorem State.modFuelle_cdc (s : State) (n : Nat) (f : FulCtx → FulCtx) : (s.modFuelle n f).cdc = s.cdc := rfl
@[simp] theorem State.modFuelle_mem (s : State) (n : Nat) (f : FulCtx → FulCtx) : (s.modFuelle n f).mem = s.mem := rfl
@[simp] theorem State.modFuelle_gens (s : State) (n : Nat) (f : FulCtx → FulCtx) : (s.modFuelle n f).gens = s.gens := rfl
@[simp] theorem State.modFuelle_latches (s : State) (n : Nat) (f : FulCtx → FulCtx) : (s.modFuelle n f).latches = s.latches := rfl
@[simp] theorem State.modFuelle_egress (s : State) (n : Nat) (f : FulCtx → FulCtx) : (s.modFuelle n f).egress = s.egress := rfl
@[simp] theorem State.modFuelle_fresh (s : State) (n : Nat) (f : FulCtx → FulCtx) : (s.modFuelle n f).fresh = s.fresh := rfl

end Sys2Proof.Machine
end

