-- ==== Sys2Proof/Laws/Core.lean ====
section
/-!
SUPPORT. The form of a meaning, of a core op and of an engine descriptor: what each comes to where its hypotheses hold.
-/
namespace Sys2Proof.Safety

open Sys2Proof.Machine

/-- A meaning of a well-formed command is its effect. -/
theorem guarded_next {i : Instr} {s : State} {f : State → State} (h : wellFormed i = true) : guarded i s f = .next (f s) := by
  unfold guarded
  rw [if_pos h]

theorem guardedBy_next {ok : Bool} {s : State} {f : State → State} (h : ok = true) : guardedBy ok s f = .next (f s) := by
  unfold guardedBy
  rw [if_pos h]

/-- A meaning answers a next state, which its effect gives, or the one fault. -/
theorem guarded_cases (i : Instr) (s : State) (f : State → State) :
    (wellFormed i = true ∧ guarded i s f = .next (f s)) ∨ (wellFormed i = false ∧ guarded i s f = .fault .noSuchUnit) := by
  unfold guarded
  cases h : wellFormed i <;> simp

theorem guardedBy_cases (ok : Bool) (s : State) (f : State → State) :
    (ok = true ∧ guardedBy ok s f = .next (f s)) ∨ (ok = false ∧ guardedBy ok s f = .fault .noSuchUnit) := by
  unfold guardedBy
  cases ok <;> simp

/-- The slot that acts runs its effect, and has acted. -/
theorem slotOp_acts {s r : State} {c slot op : Nat} {b : Bun} (h : SlotActs s c slot op r b) (masked : Bool)
    (f : State → Nat → Bun → State) (hp : masked = true ∨ predicated b slot) :
    slotOp c slot op masked f s = endSlot (f r (slotWord b.raw slot) b) c slot := by
  obtain ⟨_, h1, h2, ⟨h3, h4⟩, h5⟩ := h
  unfold slotOp
  simp only [h1, h2]
  have k : (slotsOf b).contains slot = true ∧ b.slotsDone.contains slot = false ∧ opOf (slotWord b.raw slot) = op :=
    ⟨by simpa using h3, by simpa using h4, h5⟩
  rw [if_pos k]
  have : (masked || b.preds.testBit slot) = true := by
    rcases hp with h | h <;> simp [h, predicated] at *
    simp [h]
  rw [if_pos this]

/-- The slot whose predicate is off has acted without an effect. -/
theorem slotOp_off {s r : State} {c slot op : Nat} {b : Bun} (h : SlotActs s c slot op r b) (f : State → Nat → Bun → State)
    (hp : b.preds.testBit slot = false) : slotOp c slot op false f s = endSlot r c slot := by
  obtain ⟨_, h1, h2, ⟨h3, h4⟩, h5⟩ := h
  unfold slotOp
  simp only [h1, h2]
  have k : (slotsOf b).contains slot = true ∧ b.slotsDone.contains slot = false ∧ opOf (slotWord b.raw slot) = op :=
    ⟨by simpa using h3, by simpa using h4, h5⟩
  rw [if_pos k, if_neg (by simp [hp])]

/-- A descriptor that starts has its work settled in the state in which its count is consumed. -/
theorem engineOp_starts {s : State} {g eng op off d : Nat} (h : DescriptorStarts s g eng op off d) (hop : op ≠ 0)
    (f : State → Nat → Except Stop (List (List Act))) :
    engineOp g eng op f s = planDesc s (startDesc s g eng off d) g eng off d f := by
  obtain ⟨h1, h2, h0, h3, h4, h5, h6, h7⟩ := h
  unfold engineOp
  have h3' : ¬ off + 64 > 0x3000000 := by omega
  simp [h1, h2, h0, h4, h5, h6, h7, h3', hop]

/-- A descriptor that waited for an operand has its work settled once the replies have come. -/
theorem engineOp_resumes {s : State} {g eng op off : Nat} (hr : engineRuns s g eng = true) (hh : headDesc s g eng = some off)
    (hb : (s.engine g eng).desc ≠ 0) (hd : dOp (s.engine g eng).desc = op) (hw : (s.engine g eng).work = none)
    (ho : (s.engine g eng).owed = []) (f : State → Nat → Except Stop (List (List Act))) :
    engineOp g eng op f s = planDesc s s g eng off (s.engine g eng).desc f := by
  unfold engineOp
  simp [hr, hh, hb, hd, hw, ho]

/-- A descriptor in progress performs a segment. -/
theorem engineOp_goes_on {s : State} {g eng op off : Nat} (hr : engineRuns s g eng = true) (hh : headDesc s g eng = some off)
    (hb : (s.engine g eng).desc ≠ 0) (hd : dOp (s.engine g eng).desc = op)
    (hw : (s.engine g eng).work ≠ none ∨ (s.engine g eng).owed ≠ []) (f : State → Nat → Except Stop (List (List Act))) :
    engineOp g eng op f s = runSegment s g eng off := by
  unfold engineOp
  rcases hw with hw | hw <;> simp [hr, hh, hb, hd, hw]

/-- Everything that a descriptor can come to once its header has passed. -/
theorem planDesc_cases (s begun : State) (g e off d : Nat) (f : State → Nat → Except Stop (List (List Act))) :
    (∃ work, f s d = .ok work ∧ planDesc s begun g e off d f = runSegment (beginDesc begun g e d work) g e off) ∨
    (∃ code, f s d = .error (.fault code) ∧ planDesc s begun g e off d f = enginePlanFault s g e off code) ∨
    (f s d = .error .hold ∧ planDesc s begun g e off d f = s) ∨
    (∃ q pa n ret, f s d = .error (.ask q pa n ret) ∧ planDesc s begun g e off d f = askOperand begun g e d q pa n ret) := by
  unfold planDesc
  cases h : f s d with
  | ok work => exact .inl ⟨work, rfl, rfl⟩
  | error x =>
    cases x with
    | fault code => exact .inr (.inl ⟨code, rfl, rfl⟩)
    | hold => exact .inr (.inr (.inl ⟨rfl, rfl⟩))
    | ask q pa n ret => exact .inr (.inr (.inr ⟨q, pa, n, ret, rfl, rfl⟩))

/-- Everything that a descriptor in progress can do: a run that has ended has emptied its engine; it waits for replies; it still has no
work; it ends; a stack holds it; or it performs its next segment. -/
theorem goOn_cases (s : State) (g e off : Nat) :
    ((s.engine g e).desc = 0 ∧ goOn s g e off = s) ∨
    ((s.engine g e).desc ≠ 0 ∧ (s.engine g e).owed ≠ [] ∧ goOn s g e off = holdDesc s g e) ∨
    ((s.engine g e).desc ≠ 0 ∧ (s.engine g e).owed = [] ∧
      (((s.engine g e).work = none ∧ goOn s g e off = s) ∨
       ((s.engine g e).work = some [] ∧ goOn s g e off = runNops g nopFuel (endDesc s g e off (s.engine g e).desc)) ∨
       (∃ acts rest, (s.engine g e).work = some (acts :: rest) ∧
         ((acts.any (·.held s) = true ∧ goOn s g e off = s) ∨
          (acts.any (·.held s) = false ∧ goOn s g e off =
            doSegment g e (s.modEngine g e fun x => { x with work := some rest, waiting := none }) acts))))) := by
  unfold goOn
  by_cases h : (s.engine g e).desc = 0
  · exact .inl ⟨h, by simp [h]⟩
  · cases ho : (s.engine g e).owed with
    | cons a l => exact .inr (.inl ⟨h, by simp, by simp [h, ho]⟩)
    | nil =>
      refine .inr (.inr ⟨h, rfl, ?_⟩)
      cases hw : (s.engine g e).work with
      | none => exact .inl ⟨rfl, by simp [h, ho, hw]⟩
      | some w =>
        cases w with
        | nil => exact .inr (.inl ⟨rfl, by simp [h, ho, hw]⟩)
        | cons acts rest =>
          refine .inr (.inr ⟨acts, rest, rfl, ?_⟩)
          cases hh : acts.any (·.held s) with
          | true => exact .inl ⟨rfl, by simp [h, ho, hw, hh]⟩
          | false => exact .inr ⟨rfl, by simp [h, ho, hw, hh]⟩

end Sys2Proof.Safety
end

