-- ==== Sys2Proof/Laws/HostCmd.lean ====
section
/-!
SUPPORT. What acceptance of a host command and its reply do: the lemmas that claims about host commands cite.
-/
namespace Sys2Proof.Safety

open Sys2Proof.Machine

/-! ### Folds -/

/-- A property that each state change of a fold keeps, the fold keeps. -/
theorem forEach_keeps {α : Type} (P : State → Prop) (f : State → α → State) (hf : ∀ s a, P s → P (f s a)) (l : List α) (s : State)
    (h : P s) : P (forEach l f s) := by
  induction l generalizing s with
  | nil => exact h
  | cons a r ih => exact ih (f s a) (hf s a h)

/-! ### Beside -/

theorem Beside.rfl' (s : State) : Beside s s := rfl

theorem Beside.trans {s t u : State} (h : Beside s t) (k : Beside t u) : Beside s u := by
  unfold Beside at *
  rw [k, h]

theorem beside_modEther (s : State) (n : Nat) (f : Eth → Eth) : Beside s (s.modEther n f) := rfl
theorem beside_modCipher (s : State) (n : Nat) (f : Cip → Cip) : Beside s (s.modCipher n f) := rfl
theorem beside_setSession (s : State) (n : Nat) (x : Sess) : Beside s (s.setSession n x) := rfl
theorem beside_countRx (s : State) (port : Nat) : Beside s (countRx s port) := rfl

theorem beside_askKey (s : State) (d : Nat) (r : KdfReq) : Beside s (askKey s d r) := by
  unfold askKey
  split
  · rfl
  · rfl

theorem beside_refreshIsaex (s : State) (ctx : Nat) : Beside s (refreshIsaex s ctx) := by
  unfold refreshIsaex
  refine forEach_keeps (Beside s) _ (fun t e h => h.trans (beside_askKey t _ _)) _ _ ?_
  refine forEach_keeps (Beside s) _ (fun t e h => h.trans (beside_askKey t _ _)) _ _ ?_
  rfl

theorem beside_requestKey (s : State) (d : Nat) (k : KeyName) (aad plain : Nat) : Beside s (requestKey s d k aad plain).1 := by
  unfold requestKey
  split <;> rfl

/-- A request to a cipher core counts a length that is not allowed, or is served and charged to its key, or meets a limit and
spends the key. -/
theorem requestKey_cases (s : State) (d : Nat) (k : KeyName) (aad plain : Nat) :
    (requestOk aad plain = false ∧
      requestKey s d k aad plain = (s.modCipher d fun c => { c with length := satInc 0xFFFFFFFF c.length }, false)) ∨
    (requestOk aad plain = true ∧ ((s.cipher d).useOf k).fits (aad + plain) = true ∧
      requestKey s d k aad plain = (s.modCipher d fun c => c.putUse { (s.cipher d).useOf k with
        calls := ((s.cipher d).useOf k).calls + 1, bytes := ((s.cipher d).useOf k).bytes + (aad + plain) }, true)) ∨
    (requestOk aad plain = true ∧ ((s.cipher d).useOf k).fits (aad + plain) = false ∧
      requestKey s d k aad plain = (s.modCipher d fun c => c.putUse { (s.cipher d).useOf k with spent := true }, false)) := by
  unfold requestKey KeyUse.charge
  cases requestOk aad plain <;> cases hf : ((s.cipher d).useOf k).fits (aad + plain) <;> simp [hf]

/-- A request to a cipher core takes no time. -/
theorem requestKey_now (s : State) (e : Env) (n : Nat) : (openKey s e n).1.now = s.now := by
  unfold openKey requestKey
  split <;> rfl

/-- Whether the request is served does not depend on the ports. -/
theorem openKey_countRx (s : State) (e : Env) (port n : Nat) : (openKey (countRx s port) e n).2 = (openKey s e n).2 := by
  unfold openKey requestKey
  have h : ∀ d, (countRx s port).cipher d = s.cipher d := fun _ => rfl
  have k : ∀ c, (countRx s port).session c = s.session c := fun _ => rfl
  simp only [h, k]
  split <;> rfl

theorem beside_openKey (s : State) (e : Env) (n : Nat) : Beside s (openKey s e n).1 := beside_requestKey _ _ _ _ _

theorem beside_rate (s t : State) (port : Nat) (h : rateOk s port = some t) : Beside s t := by
  unfold rateOk at h
  simp only at h
  split at h
  · cases h; rfl
  · split at h
    · cases h; rfl
    · cases h

/-- Acceptance changes only what `Beside` names. -/
theorem beside_served (s : State) (e : Env) : Beside s (served s e) := by
  unfold served
  simp only
  split
  · cases h : rateOk (countRx s e.port) e.port with
    | none => exact beside_countRx s e.port
    | some t => exact (beside_countRx s e.port).trans (beside_rate _ _ _ h)
  · exact (beside_countRx s e.port).trans ((beside_openKey _ _ _).trans ((beside_setSession _ _ _).trans (beside_refreshIsaex _ _)))

theorem beside_sendFrame (s : State) (port : Nat) (x : Sent) : Beside s (sendFrame s port x) := by
  unfold sendFrame
  split
  · rfl
  · split <;> rfl

theorem beside_replyFrame (s : State) (e : Env) (status : Nat) (params wire : List Byte) :
    Beside s (replyFrame s e status params wire) := beside_sendFrame _ _ _

theorem beside_sealReply (s : State) (e : Env) (status : Nat) (params : List Byte) : Beside s (sealReply s e status params).1 := by
  unfold sealReply
  simp only
  split
  · rfl
  · split
    · exact beside_requestKey _ _ _ _ _
    · exact (beside_requestKey _ _ _ _ _).trans (beside_replyFrame _ _ _ _ _)

theorem beside_countReplyWait (s : State) (e : Env) : Beside s (countReplyWait s e) := by
  unfold countReplyWait
  simp only
  split <;> rfl

theorem beside_reply (s : State) (e : Env) (status : Nat) (params : List Byte) : Beside s (reply s e status params) := by
  unfold reply
  simp only
  split
  · exact beside_replyFrame _ _ _ _ _
  · split
    · rfl
    · split
      · rfl
      · split
        · exact beside_sealReply _ _ _ _
        · exact (beside_sealReply _ _ _ _).trans ((beside_countReplyWait _ _).trans (beside_setSession _ _ _))

/-! ### Acceptance -/

/-- States that differ only in what `Beside` names, with the same sessions, have the same replies outstanding. -/
theorem outstanding_beside {s t : State} (h : Beside s t) (ctx : Nat) : outstanding t ctx = outstanding s ctx := by
  rw [h]; rfl

theorem serve_runs {s : State} {e : Env} {p : List Byte} {c : HostCmd} (f : State → State)
    (hmgmt : mgmtDown s = false ∨ c.urgent = true)
    (hfields : e.opcode = c.opcode ∧ e.flags = 0 ∧ e.resv = 0 ∧ e.status = 0)
    (hparams : c.len e.length = true ∧ c.ok p = true)
    (hsess : isSessionless e.context = false → c.opcode ≠ 0x10 ∧ ((s.session e.context).state = .opening → c.opcode = 0x11) ∧
      (outstanding s e.context < 16 ∨ c.urgent = true))
    (himage : s.fw.recovery = false ∨ recoveryServes c.opcode = true)
    (hstate : s.glb.state ∈ c.states) : serve s e p c f = f s := by
  obtain ⟨h1, h2, h3, h4⟩ := hfields
  obtain ⟨h5, h6⟩ := hparams
  have a : ¬ (mgmtDown s = true ∧ c.urgent = false) := by rcases hmgmt with h | h <;> simp [h]
  have b : ¬ (e.flags ≠ 0 ∨ e.resv ≠ 0 ∨ e.status ≠ 0) := by simp [h2, h3, h4]
  have d : ¬ (isSessionless e.context = false ∧ ((s.session e.context).state = .opening ∧ c.opcode ≠ 0x11 ∨ c.opcode = 0x10)) := by
    rintro ⟨hs, h | h⟩
    · exact h.2 ((hsess hs).2.1 h.1)
    · exact (hsess hs).1 h
  have g : ¬ (outstanding s e.context ≥ 16 ∧ c.urgent = false ∧ isSessionless e.context = false) := by
    rintro ⟨h, hu, hs⟩
    rcases (hsess hs).2.2 with k | k
    · omega
    · simp [hu] at k
  have i : ¬ (s.fw.recovery = true ∧ recoveryServes c.opcode = false) := by
    rcases himage with h | h <;> simp [h]
  have k : ¬ ((!c.states.contains s.glb.state) = true) := by simp [hstate]
  unfold serve
  rw [if_neg a, if_neg (by simp [h1]), if_neg b, if_neg (by simp [h5, h6]), if_neg d, if_neg g, if_neg i, if_neg k]

/-- Acceptance does not change whether firmware runs. -/
theorem mgmtDown_beside {s t : State} (h : Beside s t) : mgmtDown t = mgmtDown s := by
  rw [h]; rfl

theorem session_askKey (s : State) (d : Nat) (r : KdfReq) (ctx : Nat) : (askKey s d r).session ctx = s.session ctx := by
  unfold askKey
  split <;> rfl

/-- Asking for keys changes nothing of a session but the epochs that it holds. -/
theorem session_refreshIsaex (s : State) (ctx : Nat) :
    (refreshIsaex s ctx).session ctx =
      { s.session ctx with
        epochs := (s.session ctx).epochs.filter (isaexEpochs (s.session ctx)).contains
        txEpochs := (s.session ctx).txEpochs.filter (isaexTxEpochs (s.session ctx)).contains } := by
  unfold refreshIsaex
  refine forEach_keeps (fun t => t.session ctx = _) _ (fun t e h => by rw [session_askKey]; exact h) _ _ ?_
  refine forEach_keeps (fun t => t.session ctx = _) _ (fun t e h => by rw [session_askKey]; exact h) _ _ ?_
  show (s.setSession ctx _).session ctx = _
  simp

theorem accept_state (z : Sess) (count : Nat) : (z.accept count).state = z.state := by
  unfold Sess.accept
  split
  · rfl
  · split <;> rfl

/-- The session of a served command is in the state that it was in. -/
theorem served_session_state (s : State) (e : Env) (h : isSessionless e.context = false) :
    ((served s e).session e.context).state = (s.session e.context).state := by
  unfold served
  simp only [h, Bool.false_eq_true, if_false]
  rw [session_refreshIsaex]
  simp only [State.session_setSession, accept_state]
  rfl

/-- The command of an accepted packet runs on `served`. -/
theorem receive_accepts {c : HostCmd} {e : Env} {p : List Byte} {s : State} (h : Accepts c e p s) (i : Instr) (f : State → State) :
    receive i e p c f (countRx s e.port) = f (served s e) := by
  obtain ⟨hport, hup, hcip, ⟨hv, hctx, hudp, hlen⟩, hfields, hparams, hworks, hstate, hmgmt, himage, hway⟩ := h
  have hb := beside_served s e
  have hrun : serve (served s e) e p c f = f (served s e) := by
    apply serve_runs
    · rw [mgmtDown_beside hb]
      exact hmgmt.imp_left (·.1)
    · exact hfields
    · exact hparams
    · intro hs
      simp only [hs, Bool.false_eq_true, if_false] at hway
      obtain ⟨-, h1, h2, h3⟩ := hway
      refine ⟨h1, fun ho => h2 ?_, by rw [outstanding_beside hb]; exact h3⟩
      rw [← ho, served_session_state s e hs]
    · have : (served s e).fw = s.fw := by rw [hb]
      rw [this]; exact himage
    · have : (served s e).glb = s.glb := by rw [hb]
      rw [this]; exact hstate
  have hcip' : ¬ (((countRx s e.port).inReset 6 || (!mgmtClocked (countRx s e.port) && !c.urgent)) = true) := by
    have h6 : (countRx s e.port).inReset 6 = s.inReset 6 := rfl
    have hk : mgmtClocked (countRx s e.port) = mgmtClocked s := rfl
    rcases hmgmt with h | h <;> simp [h6, hk, hcip, h]
  have hform : ¬ (e.version ≠ 1 ∨ e.context / 0x2000 ≠ e.port ∨ e.udpLen ≠ 32 + e.length ∨ p.length ≠ e.length) := by
    simp [hv, hctx, hudp, hlen]
  have hglb : (countRx s e.port).glb.state = s.glb.state := rfl
  rw [← hrun]
  unfold receive
  rw [hglb]
  split
  · exact absurd ‹_› hworks.1
  · exact absurd ‹_› hworks.2
  · rw [if_neg hcip', if_neg hform]
    by_cases hs : isSessionless e.context = true
    · simp only [hs, if_true] at hway ⊢
      obtain ⟨hok, htag, hrate⟩ := hway
      rw [if_neg (by simp [hok]), if_neg (by simp [htag])]
      have hr : rateOk (countRx s e.port) e.port = (rateOk s e.port).map fun t => countRx t e.port := by
        have hi : (countRx s e.port).isx = s.isx := rfl
        have hn : (countRx s e.port).now = s.now := rfl
        unfold rateOk
        simp only [hi, hn]
        split
        · rfl
        · split <;> rfl
      cases hq : rateOk s e.port with
      | none => simp [hq] at hrate
      | some t => simp [served, hs, hr, hq]
    · have hs' : isSessionless e.context = false := by simpa using hs
      simp only [hs', Bool.false_eq_true, if_false] at hway ⊢
      obtain ⟨⟨hlive, hhost, hwin, hep, ⟨hreq, hkey⟩, htag⟩, -⟩ := hway
      have hsess : (countRx s e.port).session e.context = s.session e.context := rfl
      have htag' : ∀ n, tagOk (countRx s e.port) e p n = tagOk s e p n := fun _ => rfl
      have hep' : ¬ ((!(s.session e.context).epochs.contains (epochOf (nearestCount ((s.session e.context).hi.getD 0) e.seq.toNat))) = true) := by rw [hep]; simp
      have hopen := openKey_countRx s e e.port e.length
      rw [hsess, hlen, if_neg (by simp [hlive, hhost.1, hhost.2]), if_neg (by simp [hwin]), if_neg hep', if_neg (by simp [hreq]),
        if_neg (by simp [hopen, hkey]), if_neg (by simp [htag', htag])]
      simp only [served, hs', Bool.false_eq_true, if_false, hsess]

/-- The row of an accepted command answers what the command does on `served`. -/
theorem hostCommand_accepts {c : HostCmd} {e : Env} {p : List Byte} {s : State} (h : Accepts c e p s) (i : Instr) (f : State → State)
    (hwf : wellFormed i = decide (e.port < 2)) :
    hostCommand i e s (receive i e p c f) = .next (f (served s e)) := by
  have hw : wellFormed i = true := by rw [hwf]; simpa using h.port
  unfold hostCommand guarded
  rw [if_pos hw]
  show Host.Outcome.next (if passes s e.port = true ∧ s.glb.state ≠ .cold then _ else s) = _
  rw [if_pos ⟨h.up, h.works.1⟩, receive_accepts h]

end Sys2Proof.Safety
end

