-- ==== Sys2Proof/Laws/Memory.lean ====
section
/-!
SUPPORT. Memory: a read after a write, what a write leaves alone, and that every memory operation keeps the canonical form.
-/
namespace Sys2Proof.Safety

open Sys2Proof.Machine

/-! ### Cells -/

theorem cellFind_cellPut_same (d : Byte) (l : List Host.Cell) (a : Nat) (v : Byte) (lo : Nat) (dflt : Nat → Byte)
    (h : cellsFrom dflt lo l = true) : (cellFind (cellPut d l a v) a).getD d = v := by
  induction l generalizing lo with
  | nil => by_cases e : v = d <;> simp [cellPut, cellFind, e]
  | cons x r ih =>
    obtain ⟨k, w⟩ := x
    simp only [cellsFrom, Bool.and_eq_true, decide_eq_true_eq] at h
    unfold cellPut
    split
    · next h1 =>
      split
      · next e => simp [cellFind, show k ≠ a by omega, h1, e]
      · simp [cellFind]
    · split
      · next h1 h2 =>
        subst h2
        split
        · next e =>
          have : cellFind r a = none := by
            cases r with
            | nil => rfl
            | cons y q =>
              obtain ⟨k', w'⟩ := y
              have := h.2
              simp only [cellsFrom, Bool.and_eq_true, decide_eq_true_eq] at this
              simp [cellFind, show k' ≠ a by omega, show a < k' by omega]
          simp [this, e]
        · simp [cellFind]
      · next h1 h2 =>
        simp only [cellFind, show k ≠ a by omega, show ¬ a < k by omega, if_false]
        exact ih _ h.2

theorem cellFind_cellPut_other (d : Byte) (l : List Host.Cell) (a b : Nat) (v : Byte) (lo : Nat) (dflt : Nat → Byte)
    (h : cellsFrom dflt lo l = true) (hne : b ≠ a) : cellFind (cellPut d l a v) b = cellFind l b := by
  induction l generalizing lo with
  | nil =>
    unfold cellPut
    split
    · rfl
    · simp [cellFind, show a ≠ b by omega]
  | cons x r ih =>
    obtain ⟨k, w⟩ := x
    simp only [cellsFrom, Bool.and_eq_true, decide_eq_true_eq] at h
    unfold cellPut
    split
    · next h1 =>
      split
      · rfl
      · simp only [cellFind, show a ≠ b by omega, if_false]
        by_cases hb : b < a
        · simp [hb, show k ≠ b by omega, show b < k by omega]
        · simp [hb]
    · split
      · next h1 h2 =>
        subst h2
        have hr : b < a → cellFind r b = none := by
          intro hb
          cases r with
          | nil => rfl
          | cons y q =>
            obtain ⟨k', w'⟩ := y
            have := h.2
            simp only [cellsFrom, Bool.and_eq_true, decide_eq_true_eq] at this
            simp [cellFind, show k' ≠ b by omega, show b < k' by omega]
        split
        · by_cases hb : b < a
          · simp [cellFind, show a ≠ b by omega, hb, hr hb]
          · simp [cellFind, show a ≠ b by omega, hb]
        · simp [cellFind, show a ≠ b by omega]
      · simp only [cellFind]
        rw [ih _ h.2]

/-- A put keeps the form. -/
theorem cellsFrom_cellPut (dflt : Nat → Byte) (l : List Host.Cell) (a : Nat) (v : Byte) (lo : Nat) (hlo : lo ≤ a)
    (h : cellsFrom dflt lo l = true) : cellsFrom dflt lo (cellPut (dflt a) l a v) = true := by
  induction l generalizing lo with
  | nil =>
    unfold cellPut
    split
    · rfl
    · next e => simp [cellsFrom, hlo, e]
  | cons x r ih =>
    obtain ⟨k, w⟩ := x
    simp only [cellsFrom, Bool.and_eq_true, decide_eq_true_eq] at h
    unfold cellPut
    split
    · next h1 =>
      split
      · simp [cellsFrom, h]
      · next e =>
        simp only [cellsFrom, Bool.and_eq_true, decide_eq_true_eq]
        exact ⟨⟨hlo, e⟩, ⟨by omega, h.1.2⟩, h.2⟩
    · split
      · next h1 h2 =>
        subst h2
        split
        · cases r with
          | nil => rfl
          | cons y q =>
            have := h.2
            simp only [cellsFrom, Bool.and_eq_true, decide_eq_true_eq] at this ⊢
            exact ⟨⟨by omega, this.1.2⟩, this.2⟩
        · next e =>
          simp only [cellsFrom, Bool.and_eq_true, decide_eq_true_eq]
          exact ⟨⟨hlo, e⟩, h.2⟩
      · next h1 h2 =>
        simp only [cellsFrom, Bool.and_eq_true, decide_eq_true_eq]
        exact ⟨h.1, ih _ (by omega) h.2⟩

/-- A lower bound may be lowered. -/
theorem cellsFrom_mono (dflt : Nat → Byte) (l : List Host.Cell) (lo lo' : Nat) (hl : lo' ≤ lo) (h : cellsFrom dflt lo l = true) :
    cellsFrom dflt lo' l = true := by
  cases l with
  | nil => rfl
  | cons x r =>
    simp only [cellsFrom, Bool.and_eq_true, decide_eq_true_eq] at h ⊢
    exact ⟨⟨by omega, h.1.2⟩, h.2⟩

/-- What is left of a list in the form, read against defaults that agree on what is left, is in the form. -/
theorem cellsFrom_filter (dflt dflt' : Nat → Byte) (p : Host.Cell → Bool) (l : List Host.Cell) (lo : Nat)
    (hd : ∀ e, p e = true → dflt' e.1 = dflt e.1) (h : cellsFrom dflt lo l = true) : cellsFrom dflt' lo (l.filter p) = true := by
  induction l generalizing lo with
  | nil => rfl
  | cons x r ih =>
    simp only [cellsFrom, Bool.and_eq_true, decide_eq_true_eq] at h
    by_cases hp : p x = true
    · rw [List.filter_cons_of_pos hp]
      simp only [cellsFrom, Bool.and_eq_true, decide_eq_true_eq]
      exact ⟨⟨h.1.1, by rw [hd x hp]; exact h.1.2⟩, ih _ h.2⟩
    · rw [List.filter_cons_of_neg hp]
      exact cellsFrom_mono _ _ _ _ (by omega) (ih _ h.2)

/-! ### Reads and writes -/

theorem genAt_writeByte (s : State) (pa a : Nat) (v : Byte) : genAt (writeByte s pa v) a = genAt s a := rfl
theorem memDefault_writeByte (s : State) (pa a : Nat) (v : Byte) : memDefault (writeByte s pa v) a = memDefault s a := rfl

theorem readByte_writeByte_same (s : State) (pa : Nat) (v : Byte) (h : MemoryCanonical s) : readByte (writeByte s pa v) pa = v :=
  cellFind_cellPut_same _ _ _ _ 0 (memDefault s) h

theorem readByte_writeByte_other (s : State) (pa a : Nat) (v : Byte) (h : MemoryCanonical s) (hne : a ≠ pa) :
    readByte (writeByte s pa v) a = readByte s a := by
  unfold readByte
  rw [memDefault_writeByte]
  unfold writeByte
  simp only
  rw [cellFind_cellPut_other _ _ _ _ _ 0 (memDefault s) h hne]

theorem writeByte_keeps (s : State) (pa : Nat) (v : Byte) (h : MemoryCanonical s) : MemoryCanonical (writeByte s pa v) :=
  cellsFrom_cellPut (memDefault s) s.mem pa v 0 (Nat.zero_le _) h

theorem writeBytes_keeps (bs : List Byte) (s : State) (pa : Nat) (h : MemoryCanonical s) : MemoryCanonical (writeBytes s pa bs) := by
  induction bs generalizing s pa with
  | nil => exact h
  | cons b r ih => exact ih _ _ (writeByte_keeps s pa b h)

theorem copyBytes_keeps (s : State) (src dst n : Nat) (h : MemoryCanonical s) : MemoryCanonical (copyBytes s src dst n) :=
  writeBytes_keeps _ _ _ h

theorem writeCache_keeps (bs : List Byte) (s : State) (c a : Nat) (h : MemoryCanonical s) : MemoryCanonical (writeCache s c a bs) := by
  induction bs generalizing s a with
  | nil => exact h
  | cons b r ih => exact ih _ _ (writeByte_keeps s _ b h)

/-- A write through the engine port keeps the canonical form. -/
theorem portWrite_keeps (s : State) (pa : Nat) (bs : List Byte) (h : MemoryCanonical s) : MemoryCanonical (portWrite s pa bs) := by
  unfold portWrite
  split
  · dsimp only
    split <;> exact writeBytes_keeps _ s pa h
  · exact writeBytes_keeps _ s pa h

/-- The state after a write of bytes differs in memory alone. -/
theorem writeBytes_frame (bs : List Byte) (s : State) (pa : Nat) : writeBytes s pa bs = { s with mem := (writeBytes s pa bs).mem } := by
  induction bs generalizing s pa with
  | nil => rfl
  | cons b r ih => exact ih (writeByte s pa b) (pa + 1)

theorem readByte_writeBytes_outside (bs : List Byte) (s : State) (pa a : Nat) (h : MemoryCanonical s)
    (ha : a < pa ∨ pa + bs.length ≤ a) : readByte (writeBytes s pa bs) a = readByte s a := by
  induction bs generalizing s pa with
  | nil => rfl
  | cons b r ih =>
    simp only [List.length_cons] at ha
    unfold writeBytes
    rw [ih _ _ (writeByte_keeps s pa b h) (by omega), readByte_writeByte_other s pa a b h (by omega)]

theorem readByte_writeBytes_inside (bs : List Byte) (s : State) (pa i : Nat) (h : MemoryCanonical s) (hi : i < bs.length) :
    readByte (writeBytes s pa bs) (pa + i) = bs[i] := by
  induction bs generalizing s pa i with
  | nil => exact absurd hi (by simp)
  | cons b r ih =>
    unfold writeBytes
    have hk := writeByte_keeps s pa b h
    cases i with
    | zero => rw [Nat.add_zero, readByte_writeBytes_outside _ _ _ _ hk (by omega)]; exact readByte_writeByte_same s pa b h
    | succ j =>
      have := ih (writeByte s pa b) (pa + 1) j hk (by simpa using hi)
      rw [show pa + (j + 1) = pa + 1 + j by omega, this]
      rfl

theorem readBytes_writeBytes (bs : List Byte) (s : State) (pa : Nat) (h : MemoryCanonical s) :
    readBytes (writeBytes s pa bs) pa bs.length = bs := by
  apply List.ext_getElem
  · simp [readBytes]
  · intro i h1 h2
    simp only [readBytes, List.getElem_map, List.getElem_range]
    exact readByte_writeBytes_inside bs s pa i h h2

/-! ### Lost storage -/

/-- Storage that is lost leaves the rest in the form. -/
theorem loseStorage_keeps (s : State) (k : Nat) (h : MemoryCanonical s) : MemoryCanonical (loseStorage s k) := by
  refine cellsFrom_filter (memDefault s) (memDefault (loseStorage s k)) _ s.mem 0 ?_ h
  intro e he
  simp only [Bool.and_eq_true, bne_iff_ne, ne_eq, Bool.not_eq_true', Bool.and_eq_false_iff, beq_eq_false_iff_ne] at he
  have key : ∀ j, j ≠ k → tget 0 (loseStorage s k).gens j = tget 0 s.gens j := by
    intro j hj
    simp only [loseStorage, tget]
    rw [tfind_tput_other _ _ _ _ hj]
  have : genAt (loseStorage s k) e.1 = genAt s e.1 := by
    unfold genAt
    simp only
    split
    · next h4 => rw [key 4 (by omega), key 0 (by rcases he.2 with h | h <;> omega)]
    · rw [key _ he.1]
  unfold memDefault
  rw [this]

/-- The form depends on memory and the generations alone. -/
theorem memoryCanonical_congr {s t : State} (hm : t.mem = s.mem) (hg : t.gens = s.gens) : MemoryCanonical t ↔ MemoryCanonical s := by
  have : memDefault t = memDefault s := by
    funext pa
    unfold memDefault genAt
    rw [hg]
  unfold MemoryCanonical Memory.wf
  rw [this, hm]

theorem memoryCanonical_reset : MemoryCanonical State.reset := rfl

end Sys2Proof.Safety
end

