-- ==== Sys2Proof/Laws/Regs.lean ====
section
/-!
SUPPORT. A REG_WRITE of one word: the lemma that claims about register rows cite.
-/
namespace Sys2Proof.Safety

open Sys2Proof.Machine

theorem leNat_leBytes (n v : Nat) : leNat (leBytes n v) = v % 256 ^ n := by
  induction n generalizing v with
  | zero => simp [leBytes, leNat, Nat.mod_one]
  | succ n ih =>
    have h : (BitVec.ofNat 8 v).toNat = v % 256 := by simp
    rw [leBytes, leNat, ih, h, Nat.pow_succ', Nat.mod_mul]

theorem beNat_beBytes (n v : Nat) : beNat (beBytes n v) = v % 256 ^ n := by
  simp [beNat, beBytes, leNat_leBytes]

theorem leBytes_length (n v : Nat) : (leBytes n v).length = n := by
  induction n generalizing v with
  | zero => rfl
  | succ n ih => simp [leBytes, ih]

@[simp] theorem beBytes_length (n v : Nat) : (beBytes n v).length = n := by simp [beBytes, leBytes_length]

theorem oneWord_length (off : Nat) (v : W32) : (oneWord off v).length = 16 := by simp [oneWord]

theorem regAddr_oneWord (off : Nat) (v : W32) (h : off < 0x3000000) : regAddr (oneWord off v) = regBase + off := by
  have : (List.drop 0 (oneWord off v)).take 8 = beBytes 8 (regBase + off) := by
    simp [oneWord]
  unfold regAddr be
  rw [this, beNat_beBytes]
  apply Nat.mod_eq_of_lt
  have : regBase = 0xF00000000000 := rfl
  omega

theorem regCount_oneWord (off : Nat) (v : W32) : regCount (oneWord off v) = 1 := by
  have : ((oneWord off v).drop 8).take 2 = beBytes 2 1 := by simp [oneWord]
  exact (congrArg beNat this).trans rfl

theorem regValues_oneWord (off : Nat) (v : W32) : regValues (oneWord off v) = [v.toNat] := by
  have : ((oneWord off v).drop 12).take 4 = beBytes 4 v.toNat := by
    have a : List.drop 12 (beBytes 8 (regBase + off)) = [] := List.drop_eq_nil_of_le (by simp)
    have b : List.drop 4 (beBytes 2 1) = [] := List.drop_eq_nil_of_le (by simp)
    simp [oneWord, List.drop_append, a, b, List.take_of_length_le]
  unfold regValues
  rw [regCount_oneWord]
  simp only [List.range_one, List.map_cons, List.map_nil, Nat.mul_zero, Nat.add_zero, be, this, beNat_beBytes]
  have : v.toNat % 256 ^ 4 = v.toNat := Nat.mod_eq_of_lt v.isLt
  rw [this]

/-- The row of one register: the word is written, and the reply tells whether it was. -/
theorem regRow_accepts {off : Nat} {v : W32} {e : Env} {s : State} (h : WordAccepted off v e s) (hoff : off < 0x3000000) (ok : Bool)
    (hok : ok = true) :
    regRow ok e off v s = .next
      (let x := writeReg (served s e) off v.toNat
       if x.status = 0 then replyAfter x.next e (x.ticket.toList.map fun t => (t, 0)) 0 (beBytes 2 1)
       else replyAfter x.next e [] x.status (beBytes 2 0)) := by
  unfold regRow guardedBy
  rw [if_pos hok]
  show Host.Outcome.next (if passes s e.port = true ∧ s.glb.state ≠ .cold then _ else s) = _
  rw [if_pos ⟨h.up, h.works.1⟩]
  unfold doRegWrite
  rw [receive_accepts h]
  unfold serveRegWrite
  simp only [regValues_oneWord, regAddr_oneWord off v hoff]
  have hin : inRegSpace (regBase + off) = true := by
    unfold inRegSpace; simp; omega
  have hwp : ¬ ((wpIndex (regBase + off - regBase)).isSome = true ∧ (0 : Nat) = 16) := by simp
  unfold writeRegs
  rw [if_neg (by simp [hin])]
  simp only [Nat.add_sub_cancel_left, stOk]
  by_cases hs : (writeReg (served s e) off v.toNat).status = 0
  · simp [hs, writeRegs]
  · simp [hs]

end Sys2Proof.Safety
end

