-- ==== Sys2Proof/Laws/Run.lean ====
section
/-! SUPPORT. What the shared operations of cores, runs, resets and frames can do: one lemma each, to cite instead of unfolding. -/

namespace Sys2Proof.Machine

/-- A record that arrives is written at once, or waits for the end of the cycle of the bundle in progress (R124). -/
theorem takeRecord_cases (x : Core) (slot : Nat) (record : List Byte) :
    (x.bun = none ∧ takeRecord x slot record = putRecord x slot record) ∨
    (∃ b, x.bun = some b ∧ takeRecord x slot record = { x with bun := some { b with records := b.records ++ [(slot, record)] } }) := by
  unfold takeRecord
  cases h : x.bun with
  | none => exact .inl ⟨rfl, rfl⟩
  | some b => exact .inr ⟨b, rfl, rfl⟩

@[simp] theorem landRecords_idle (x : Core) (h : x.bun = none) : landRecords x = x := by simp [landRecords, h]

/-- A token increment does nothing, is kept for the TOKSET of its cycle, faults, or adds 1 (R96). -/
theorem addToken_cases (s : State) (c tok : Nat) :
    (480 ≤ c ∧ addToken s c tok = s) ∨
    (c < 480 ∧ tokenPending (s.core c) 0x32 (tok % 64) = true ∧ addToken s c tok = s.setCore c (noteArrival (s.core c) (tok % 64))) ∨
    (c < 480 ∧ 65535 ≤ readT (s.core c) (tok % 64) ∧ addToken s c tok = corePlanFault s c 3 (s.core c).pc (tok % 64)) ∨
    (c < 480 ∧ ∃ x, addToken s c tok = s.setCore c x ∧
      (x = writeT (s.core c) (tok % 64) (readT (s.core c) (tok % 64) + 1) ∨
       x = noteArrival (writeT (s.core c) (tok % 64) (readT (s.core c) (tok % 64) + 1)) (tok % 64))) := by
  simp only [addToken]
  split
  · exact .inl ⟨by assumption, rfl⟩
  · rename_i h
    have hc : c < 480 := by omega
    split
    · exact .inr (.inl ⟨hc, by assumption, rfl⟩)
    · split
      · exact .inr (.inr (.inl ⟨hc, by assumption, rfl⟩))
      · refine .inr (.inr (.inr ⟨hc, _, rfl, ?_⟩))
        split
        · exact .inr rfl
        · exact .inl rfl

/-- A run ends at the boundaries of its cores and releases its plan, or nothing happens (R107, R213). -/
theorem endDue_waits (s : State) (h : s.run.ending = false ∨ midBundle s = true) (k : s.run.releaseAtResume = false) : endDue s = s := by
  have c : ¬(s.run.ending = true ∧ s.glb.state = .running ∧ midBundle s = false) := fun a =>
    h.elim (fun h => by simp [h] at a) fun h => by simp [h] at a
  simp [endDue, c, k]

/-- Nothing ends where no run is in progress. -/
theorem endRun_idle (s : State) (h : runInProgress s = false) : endRun s = s := by simp [endRun, h]

/-- A device that already needs repair, is in ALARM or COLD stays as it is (R31, R419). -/
theorem needsRepair_stays (s : State) (res : Nat) (h : s.glb.state = .cold ∨ s.glb.state = .needsRepair ∨ s.glb.state = .alarm) :
    needsRepair s res = s := by
  unfold needsRepair needsRepairAt
  rcases h with h | h | h <;> rw [h]

/-- The device's own reset of a function begins where R38 lets a request begin it, and does nothing elsewhere. -/
theorem ownReset_cases (s : State) (fn : Nat) :
    ownReset s fn = s ∨ (working s = true ∧ (s.glb.state = .alarm → fn = 0) ∧ ownReset s fn = beginReset s fn none) := by
  unfold ownReset
  split
  · exact .inl rfl
  · rename_i h
    simp only [Bool.or_eq_true, Bool.not_eq_true', Bool.and_eq_true, beq_iff_eq, bne_iff_ne, ne_eq, not_or, not_and, Decidable.not_not,
      Bool.not_eq_false] at h
    exact .inr ⟨h.1, h.2, rfl⟩

/-- A command whose functions are in service runs (R399). -/
theorem needing_runs {fns : List Nat} {e : Env} {f : State → State} {s : State} (h : ∀ n ∈ fns, s.inReset n = false) :
    needing fns e f s = f s := by
  unfold needing
  rw [if_neg]
  simpa using h

theorem needing_busy {fns : List Nat} {e : Env} {f : State → State} {s : State} (n : Nat) (hn : n ∈ fns) (h : s.inReset n = true) :
    needing fns e f s = reply s e stBusy [] := by
  unfold needing
  rw [if_pos]
  simpa using ⟨n, hn, h⟩

/-- A frame of a class whose egress is free leaves; one that is paused waits; a port that passes no frames drops it (R389, R390). -/
theorem sendFrame_cases (s : State) (port : Nat) (x : Sent) :
    (passes s port = false ∧ sendFrame s port x = s) ∨
    (passes s port = true ∧ frameWaits s port x = true ∧ sendFrame s port x = s.modEther port fun e => { e with waits := e.waits ++ [x] }) ∨
    (passes s port = true ∧ frameWaits s port x = false ∧ sendFrame s port x = countTx (send s x) port) := by
  unfold sendFrame
  cases hp : passes s port with
  | false => exact .inl ⟨rfl, rfl⟩
  | true =>
    cases hw : frameWaits s port x with
    | true => exact .inr (.inl ⟨rfl, rfl, rfl⟩)
    | false => exact .inr (.inr ⟨rfl, rfl, rfl⟩)

/-- The hold of a reset grows, and nothing else changes (R482, R484). -/
theorem extendHold_only (s : State) (n : Nat) :
    s.pwr.holdUntil ≤ (extendHold s n).pwr.holdUntil ∧ s.now + n ≤ (extendHold s n).pwr.holdUntil ∧
    extendHold s n = { s with pwr := { s.pwr with holdUntil := (extendHold s n).pwr.holdUntil } } :=
  ⟨Nat.le_max_left _ _, Nat.le_max_right _ _, rfl⟩

/-- Both record slots hold nothing after the tiers are lost, and a write of a slot ends that for it alone (R483). -/
theorem loseTiers_slots (s : State) (slot : Nat) : slotLost (loseTiers s) slot = true := by
  unfold slotLost loseTiers
  simp only
  split <;> decide

theorem fillSlot_ends (s : State) (slot : Nat) : slotLost (s.fillSlot slot) slot = false := by
  unfold slotLost State.fillSlot
  by_cases h : slot = slotA <;> simp [h]

end Sys2Proof.Machine
end

