-- ==== Sys2Proof/Tests/Slice0.lean ====
section
/-!
SUPPORT. Tests: ill-formed commands, single steps whose expected values are those of the rules of spec/, and, for each statement
with hypotheses, states and operands that meet them.
-/
namespace Sys2Proof.Tests

open Sys2Proof.Machine Sys2Proof.Safety

/-! ### Operands -/

def env0 : Env :=
  { port := 0, srcMac := 0x0200000000AA, srcIp := 0xFFFF0A000001, srcPort := 4000, dstIp := 0xFFFF0A000002, udpLen := 32, version := 1
    flags := 0, context := 1, seq := 1, opcode := 0x13, length := 0, status := 0, resv := 0, tag := 0 }

def frame0 : Frame :=
  { port := 0, fcsOk := true, len := 64, dst := .own, pause := false, tags := [], net := .ipv4 5 false true 0x0A000002
    transport := .udp 9 false true, isaex := none }

def flit0 : Flit := blankFlit State.reset 0

def fpkt0 : FPkt :=
  { port := 0, srcIp := 0xFFFF0A000003, srcPort := 5000, version := 1, typ := 1, context := 1, seq := 1, epoch := 0, round := 0, group := 0
    index := 0, k := 0, m := 0, flags := 0, len := 0, resv := 0, tick := 0, plain := [], tag := 0, ce := false }

def ipkt0 : IPkt :=
  { port := 0, srcIp := 0xFFFF0A000004, srcPort := 6000, dport := 7000, version := 1, typ := 2, context := 1, reqid := 0, cookie := 5, object := 0, offset := 0
    length := 0, check := 0, payload := [] }

def image0 : ShardImage := { masters := [], m := [], r := [], anchor := [], u := [], factors := [], tag := 0 }

def offer0 : ReflectOffer :=
  { port := 0, serial := 1, gen := 0, gens := [], sizes := [], held := 0, heldSerial := 0, tags := [], fits := true }

def piece0 : ReflectPiece :=
  { stack := 0, shard := 0, off := 0, diff := false, block := [], step := 0, blocks := 1, shards := 1 }

def mismatch0 : Mismatch := { res := .bank 0 0, pa := none, eng := 0, word := 0, failures := 0 }

/-! ### Units that the package does not hold -/

theorem test_ill_formed_0 : ∀ i ∈ ([
    .quiesce { env0 with port := 2 } [], .resume { env0 with port := 2 } [], .fenceLinks { env0 with port := 2 } [], .sessOpen { env0 with port := 2 } [],
    .sessConfirm { env0 with port := 2 } [], .sessClose { env0 with port := 2 } [], .sessPing { env0 with port := 2 } [], .eventMask { env0 with port := 2 } [],
    .eventRead { env0 with port := 2 } [], .regRead { env0 with port := 2 } [], .regWrite { env0 with port := 2 } [], .planWrite { env0 with port := 2 } [],
    .planRead { env0 with port := 2 } [], .planCommit { env0 with port := 2 } [], .planRelease { env0 with port := 2 } [], .stepStart { env0 with port := 2 } [],
    .stepStop { env0 with port := 2 } [], .stepStatus { env0 with port := 2 } [], .evalRead { env0 with port := 2 } [], .evalStatus { env0 with port := 2 } [],
    .fnReset { env0 with port := 2 } [], .fulOpen { env0 with port := 2 } [], .fulClose { env0 with port := 2 } [], .fulStatus { env0 with port := 2 } [],
    .fwWrite { env0 with port := 2 } [], .fwRead { env0 with port := 2 } [], .fwErase { env0 with port := 2 } [], .fwStage { env0 with port := 2 } [],
    .fwUnstage { env0 with port := 2 } [], .fwStatus { env0 with port := 2 } [], .fwManifest { env0 with port := 2 } [], .idCert { env0 with port := 2 } [],
    .idKem { env0 with port := 2 } [], .rootProvision { env0 with port := 2 } [], .attestQuote { env0 with port := 2 } [], .sprReport { env0 with port := 2 } [],
    .buddySet { env0 with port := 2 } [], .refillSource { env0 with port := 2 } [], .refillTarget { env0 with port := 2 } [], .repairDone { env0 with port := 2 } [],
    .lnkRetrain { env0 with port := 2 } [], .lnkUnfence { env0 with port := 2 } [], .lnkIdent { env0 with port := 2 } [], .ingStatus { env0 with port := 2 } [],
    .ingSeek { env0 with port := 2 } [], .ingEndpoint { env0 with port := 2 } [], .strangerFrame { frame0 with port := 2 }, .arpRequest 2 0 0 0,
    .neighbourSolicitation 2 0 0 0, .pfcFrame 2 0 [], .sessionOpeningTimeout 16384, .sessionIdleTimeout 16384,
    .waitToken 480, .slotNop 480 0, .slotNop 0 8, .mWload 480 0,
    .mWload 0 4, .mMac 480 0, .mMac 0 4, .mL1 480 0] : List Instr), wellFormed i = false := by
  decide

theorem test_ill_formed_1 : ∀ i ∈ ([
    .mL1 0 4, .mSqd 480 0, .mSqd 0 4, .mMinplus 480 0,
    .mMinplus 0 4, .mMaxplus 480 0, .mMaxplus 0 4, .mHam 480 0,
    .mHam 0 4, .mCmpc 480 0, .mCmpc 0 4, .mDrain 480 0,
    .mDrain 0 4, .mInit 480 0, .mInit 0 4, .vAdd 480 0,
    .vAdd 0 2, .vSub 480 0, .vSub 0 2, .vMul 480 0,
    .vMul 0 2, .vFma 480 0, .vFma 0 2, .vMin 480 0,
    .vMin 0 2, .vMax 480 0, .vMax 0 2, .vAbs 480 0,
    .vAbs 0 2, .vNeg 480 0, .vNeg 0 2, .vAdds 480 0,
    .vAdds 0 2, .vMuls 480 0, .vMuls 0 2, .vDiv 480 0,
    .vDiv 0 2, .vSqrt 480 0, .vSqrt 0 2, .vRcp 480 0,
    .vRcp 0 2, .vRsqrt 480 0, .vRsqrt 0 2, .vExp 480 0,
    .vExp 0 2, .vLog 480 0, .vLog 0 2, .vTanh 480 0,
    .vTanh 0 2, .vSigmoid 480 0, .vSigmoid 0 2, .vGelu 480 0,
    .vGelu 0 2, .vSilu 480 0, .vSilu 0 2, .vRelu 480 0,
    .vRelu 0 2, .vAnd 480 0, .vAnd 0 2, .vOr 480 0] : List Instr), wellFormed i = false := by
  decide

theorem test_ill_formed_2 : ∀ i ∈ ([
    .vOr 0 2, .vXor 480 0, .vXor 0 2, .vShl 480 0,
    .vShl 0 2, .vShr 480 0, .vShr 0 2, .vSra 480 0,
    .vSra 0 2, .vPopc 480 0, .vPopc 0 2, .vCmplt 480 0,
    .vCmplt 0 2, .vCmple 480 0, .vCmple 0 2, .vCmpeq 480 0,
    .vCmpeq 0 2, .vCmpne 480 0, .vCmpne 0 2, .vSel 480 0,
    .vSel 0 2, .vPand 480 0, .vPand 0 2, .vPor 480 0,
    .vPor 0 2, .vPxor 480 0, .vPxor 0 2, .vPnot 480 0,
    .vPnot 0 2, .vIsnan 480 0, .vIsnan 0 2, .vPfirst 480 0,
    .vPfirst 0 2, .vPtail 480 0, .vPtail 0 2, .vCvt 480 0,
    .vCvt 0 2, .vQcvt 480 0, .vQcvt 0 2, .vAmax 480 0,
    .vAmax 0 2, .vRsum 480 0, .vRsum 0 2, .vRsumsq 480 0,
    .vRsumsq 0 2, .vRprod 480 0, .vRprod 0 2, .vRmax 480 0,
    .vRmax 0 2, .vRmin 480 0, .vRmin 0 2, .vRargmax 480 0,
    .vRargmax 0 2, .vRargmin 480 0, .vRargmin 0 2, .vScansum 480 0,
    .vScansum 0 2, .vScansumx 480 0, .vScansumx 0 2, .vScanmax 480 0] : List Instr), wellFormed i = false := by
  decide

theorem test_ill_formed_3 : ∀ i ∈ ([
    .vScanmax 0 2, .vScanmin 480 0, .vScanmin 0 2, .vSoftmax 480 0,
    .vSoftmax 0 2, .vOsstep 480 0, .vOsstep 0 2, .vOsmerge 480 0,
    .vOsmerge 0 2, .vOsnorm 480 0, .vOsnorm 0 2, .vMov 480 0,
    .vMov 0 2, .vBcast 480 0, .vBcast 0 2, .vMovsv 480 0,
    .vMovsv 0 2, .vMovvs 480 0, .vMovvs 0 2, .vRot 480 0,
    .vRot 0 2, .vPerm 480 0, .vPerm 0 2, .vIota 480 0,
    .vIota 0 2, .vCompress 480 0, .vCompress 0 2, .ldLdv 480,
    .ldStv 480, .ldLds 480, .ldSts 480, .ldLdp 480,
    .ldStp 480, .ldFeed 480, .ldFeedv 480, .ctlEnd 480,
    .ctlLoop 480, .ctlBr 480, .ctlSli 480, .ctlSlih 480,
    .ctlSadd 480, .ctlSsub 480, .ctlSand 480, .ctlSor 480,
    .ctlSxor 480, .ctlSshl 480, .ctlSshr 480, .ctlSsra 480,
    .ctlSmul 480, .ctlSaddi 480, .ctlCmpeq 480, .ctlCmplt 480,
    .ctlCmpltu 480, .ctlXset 480, .ctlXaddi 480, .ctlXget 480,
    .ctlSettile 480, .ctlSetkq 480, .ctlSignal 480, .ctlTokrd 480] : List Instr), wellFormed i = false := by
  decide

theorem test_ill_formed_4 : ∀ i ∈ ([
    .ctlTokset 480, .ctlKick 480, .ctlFence 480, .ctlTick 480,
    .tokenArrival 480 0, .tokenArrival 0 64, .waitTimeout 480, .chainRecord 40 [],
    .engineTokenArrival 40 0 0, .engineTokenArrival 0 10 0, .engineTokenArrival 0 0 8, .engineWaitTimeout 40 0,
    .engineWaitTimeout 0 10, .dmaCopy 40 0, .dmaCopy 0 2, .dmaSkew 40 0,
    .dmaSkew 0 2, .dmaFill 40 0, .dmaFill 0 2, .engGather 40,
    .engScatter 40, .engScatterAdd 40, .engTranspose 40, .engLookup 40,
    .engSort 40, .engTopk 40, .engSetslot 40, .engGen 40,
    .engEncode 40, .engDecode 40, .engSend 40, .engRecvSum 40,
    .engRecvMax 40, .engRecvMin 40, .engRecvCopy 40, .engMapSend 40,
    .engMapRecv 40, .updateDone 20, .shardCopy 20 0 image0, .reflectOffer { offer0 with port := 48 },
    .reflectionData { piece0 with stack := 20 }, .reflectAck ⟨0, [(20, 0)]⟩, .fetchRequest 48 0 0 0 0, .fetchRequest 0 20 0 0 0,
    .fetchData 20 0 0 image0, .parityMismatch { mismatch0 with res := .core 480 }, .parityMismatch { mismatch0 with res := .bank 40 0 }, .parityMismatch { mismatch0 with res := .bank 0 34 },
    .parityMismatch { mismatch0 with res := .die 20 false 0 }, .parityMismatch { mismatch0 with res := .die 0 true 9 }, .parityMismatch { mismatch0 with res := .laneGroup 23 0 }, .parityMismatch { mismatch0 with res := .laneGroup 52 0 },
    .parityMismatch { mismatch0 with res := .laneGroup 0 256 }, .parityMismatch { mismatch0 with res := .pipeline 20 0 }, .parityMismatch { mismatch0 with res := .pipeline 0 2 }, .parityMismatch { mismatch0 with res := .cipherCore 2 0 },
    .parityMismatch { mismatch0 with res := .cipherCore 0 5 }, .parityMismatch { mismatch0 with res := .mgmtCore 2 }, .parityMismatch { mismatch0 with res := .builtinTest 480 }, .parityMismatch { mismatch0 with res := .column 480 0 0 }] : List Instr), wellFormed i = false := by
  decide

theorem test_ill_formed_5 : ∀ i ∈ ([
    .parityMismatch { mismatch0 with res := .column 0 4 0 }, .parityMismatch { mismatch0 with res := .column 0 0 34 }, .parityMismatch { mismatch0 with res := .rfEntry 480 0 }, .parityMismatch { mismatch0 with res := .rfEntry 0 520 },
    .parityMismatch { mismatch0 with res := .linkLane 48 0 }, .parityMismatch { mismatch0 with res := .linkLane 0 9 }, .parityMismatch { mismatch0 with res := .portLogic 48 }, .parityMismatch { mismatch0 with res := .pstDie 2 },
    .parityMismatch { mismatch0 with res := .pstRecord 4096 }, .parityMismatch { mismatch0 with pa := some (2 ^ 56) }, .parityMismatch { mismatch0 with failures := 4 }, .parityMismatch { mismatch0 with eng := 10 },
    .scrubRead 20 false 0, .dieCopyEnd 20 false, .shadowTestDone 40 false, .fnResetEnd 7,
    .resetRelease 4 false, .railReset 9, .dipTimeout 9, .pllLockLoss .compute 10,
    .pllLockLoss .mortar 12, .pllLockLoss .stackLogic 20, .pllLockLoss .link 48, .pllLockLoss .ethernet 2,
    .pllLockLoss .ioDie 2, .pllFail .compute 10, .pllFail .mortar 12, .pllFail .stackLogic 20,
    .pllFail .link 48, .pllFail .ethernet 2, .pllFail .ioDie 2, .thermalLevel 32 0,
    .minorAlarm 0, .minorAlarm 4, .keyDerived 2, .cipherKat 2 0 false,
    .cipherKat 0 5 false, .signalDetect 48, .trainingTimeout 48, .identResend 48,
    .ident 48 flit0, .linkDown 48, .linkLost 48, .flitIdle 48 flit0,
    .flitData 48 flit0, .flitMsg 48 flit0, .flitRdreq 48 flit0, .flitDrain 48 flit0,
    .flitDrainAck 48 flit0, .laneSwap 48 flit0, .fuelleData { fpkt0 with port := 2 }, .fuelleParity { fpkt0 with port := 2 },
    .fuelleAck { fpkt0 with port := 2 }, .fuelleOffer { fpkt0 with port := 2 }, .fuelleClose { fpkt0 with port := 2 }, .fuelleJoin { fpkt0 with port := 2 },
    .fuellePacedSend 16384, .fuelleAckTimer 16384, .fuelleOfferTimer 16384, .fuelleRtoExpiry 16384] : List Instr), wellFormed i = false := by
  decide

theorem test_ill_formed_6 : ∀ i ∈ ([
    .fuelleRekey 16384, .ingestData { ipkt0 with port := 2 }, .ingestError { ipkt0 with port := 2 }, .ingestReadTimeout 2048 0,
    .glbLossScale { env0 with port := 2 } 0, .glbLsPolicy { env0 with port := 2 } 0, .coreWaitLimit { env0 with port := 2 } 0 0, .coreWaitLimit env0 480 0,
    .epilogueSetWrite { env0 with port := 2 } 0 0 0 0, .epilogueSetWrite env0 480 0 0 0, .epilogueSetWrite env0 0 8 0 0, .epilogueSetWrite env0 0 0 4 0,
    .updHpWrite { env0 with port := 2 } 0 0 0 0, .updHpWrite env0 20 0 0 0, .updHpWrite env0 0 8 0 0, .updHpWrite env0 0 0 7 0,
    .glbPlanVariant { env0 with port := 2 } 0, .glbEvalCtl { env0 with port := 2 } 0, .glbCommitMark { env0 with port := 2 } 0, .glbMarkInterval { env0 with port := 2 } 0,
    .sprLastingWindow { env0 with port := 2 } 0, .sprLastingEvents { env0 with port := 2 } 0, .stkScrubCtl { env0 with port := 2 } 0 0, .stkScrubCtl env0 20 0,
    .lnkMiswirePolicy { env0 with port := 2 } 0, .lnkDownLimit { env0 with port := 2 } 0, .fulUdpPort { env0 with port := 2 } 0, .fulRoundBase { env0 with port := 2 } 0,
    .fulPace { env0 with port := 2 } 0, .fulJoinLimit { env0 with port := 2 } 0, .isxUdpPort { env0 with port := 2 } 0, .isxIdleLimit { env0 with port := 2 } 0,
    .ethIpv4 { env0 with port := 2 } 0 0, .ethIpv4 env0 2 0, .ethIpv6 { env0 with port := 2 } 0 0 0, .ethIpv6 env0 2 0 0,
    .ethIpv6 env0 0 4 0, .ethVlan { env0 with port := 2 } 0 0, .ethVlan env0 2 0, .ethNexthopLo { env0 with port := 2 } 0 0,
    .ethNexthopLo env0 2 0, .ethNexthopHi { env0 with port := 2 } 0 0, .ethNexthopHi env0 2 0, .ethDscp { env0 with port := 2 } 0 0,
    .ethDscp env0 2 0, .ethPfc { env0 with port := 2 } 0 0, .ethPfc env0 2 0, .pstWearAddr { env0 with port := 2 } 0,
    .pllRelock .compute 10, .pllRelock .mortar 12, .pllRelock .stackLogic 20, .pllRelock .link 48,
    .pllRelock .ethernet 2, .pllRelock .ioDie 2, .ethLinkChange 2 false] : List Instr), wellFormed i = false := by
  decide

theorem test_well_formed_0 : ∀ i ∈ ([
    .quiesce env0 [], .resume env0 [], .fenceLinks env0 [], .parkingEnd,
    .sessOpen env0 [], .sessConfirm env0 [], .sessClose env0 [], .sessPing env0 [],
    .eventMask env0 [], .eventRead env0 [], .regRead env0 [], .regWrite env0 [],
    .planWrite env0 [], .planRead env0 [], .planCommit env0 [], .planRelease env0 [],
    .stepStart env0 [], .stepStop env0 [], .stepStatus env0 [], .evalRead env0 [],
    .evalStatus env0 [], .fnReset env0 [], .fulOpen env0 [], .fulClose env0 [],
    .fulStatus env0 [], .fwWrite env0 [], .fwRead env0 [], .fwErase env0 [],
    .fwStage env0 [], .fwUnstage env0 [], .fwStatus env0 [], .fwManifest env0 [],
    .idCert env0 [], .idKem env0 [], .rootProvision env0 [], .attestQuote env0 [],
    .sprReport env0 [], .buddySet env0 [], .refillSource env0 [], .refillTarget env0 [],
    .repairDone env0 [], .lnkRetrain env0 [], .lnkUnfence env0 [], .lnkIdent env0 [],
    .ingStatus env0 [], .ingSeek env0 [], .ingEndpoint env0 [], .strangerFrame frame0,
    .arpRequest 0 0 0 0, .neighbourSolicitation 0 0 0 0, .pfcFrame 0 0 [], .sessionOpeningTimeout 0,
    .sessionIdleTimeout 0, .waitToken 0, .slotNop 0 0, .mWload 0 0,
    .mMac 0 0, .mL1 0 0, .mSqd 0 0, .mMinplus 0 0] : List Instr), wellFormed i = true := by
  decide

theorem test_well_formed_1 : ∀ i ∈ ([
    .mMaxplus 0 0, .mHam 0 0, .mCmpc 0 0, .mDrain 0 0,
    .mInit 0 0, .vAdd 0 0, .vSub 0 0, .vMul 0 0,
    .vFma 0 0, .vMin 0 0, .vMax 0 0, .vAbs 0 0,
    .vNeg 0 0, .vAdds 0 0, .vMuls 0 0, .vDiv 0 0,
    .vSqrt 0 0, .vRcp 0 0, .vRsqrt 0 0, .vExp 0 0,
    .vLog 0 0, .vTanh 0 0, .vSigmoid 0 0, .vGelu 0 0,
    .vSilu 0 0, .vRelu 0 0, .vAnd 0 0, .vOr 0 0,
    .vXor 0 0, .vShl 0 0, .vShr 0 0, .vSra 0 0,
    .vPopc 0 0, .vCmplt 0 0, .vCmple 0 0, .vCmpeq 0 0,
    .vCmpne 0 0, .vSel 0 0, .vPand 0 0, .vPor 0 0,
    .vPxor 0 0, .vPnot 0 0, .vIsnan 0 0, .vPfirst 0 0,
    .vPtail 0 0, .vCvt 0 0, .vQcvt 0 0, .vAmax 0 0,
    .vRsum 0 0, .vRsumsq 0 0, .vRprod 0 0, .vRmax 0 0,
    .vRmin 0 0, .vRargmax 0 0, .vRargmin 0 0, .vScansum 0 0,
    .vScansumx 0 0, .vScanmax 0 0, .vScanmin 0 0, .vSoftmax 0 0] : List Instr), wellFormed i = true := by
  decide

theorem test_well_formed_2 : ∀ i ∈ ([
    .vOsstep 0 0, .vOsmerge 0 0, .vOsnorm 0 0, .vMov 0 0,
    .vBcast 0 0, .vMovsv 0 0, .vMovvs 0 0, .vRot 0 0,
    .vPerm 0 0, .vIota 0 0, .vCompress 0 0, .ldLdv 0,
    .ldStv 0, .ldLds 0, .ldSts 0, .ldLdp 0,
    .ldStp 0, .ldFeed 0, .ldFeedv 0, .ctlEnd 0,
    .ctlLoop 0, .ctlBr 0, .ctlSli 0, .ctlSlih 0,
    .ctlSadd 0, .ctlSsub 0, .ctlSand 0, .ctlSor 0,
    .ctlSxor 0, .ctlSshl 0, .ctlSshr 0, .ctlSsra 0,
    .ctlSmul 0, .ctlSaddi 0, .ctlCmpeq 0, .ctlCmplt 0,
    .ctlCmpltu 0, .ctlXset 0, .ctlXaddi 0, .ctlXget 0,
    .ctlSettile 0, .ctlSetkq 0, .ctlSignal 0, .ctlTokrd 0,
    .ctlTokset 0, .ctlKick 0, .ctlFence 0, .ctlTick 0,
    .tokenArrival 0 0, .waitTimeout 0, .chainRecord 0 [], .engineTokenArrival 0 0 0,
    .engineWaitTimeout 0 0, .dmaCopy 0 0, .dmaSkew 0 0, .dmaFill 0 0,
    .engGather 0, .engScatter 0, .engScatterAdd 0, .engTranspose 0] : List Instr), wellFormed i = true := by
  decide

theorem test_well_formed_3 : ∀ i ∈ ([
    .engLookup 0, .engSort 0, .engTopk 0, .engSetslot 0,
    .engGen 0, .engEncode 0, .engDecode 0, .engSend 0,
    .engRecvSum 0, .engRecvMax 0, .engRecvMin 0, .engRecvCopy 0,
    .engMapSend 0, .engMapRecv 0, .phaseStart, .updateDone 0,
    .digestTransfer 0 0 (0, 0, 0) 0 [], .shardCopy 0 0 image0, .reflectOffer offer0, .reflectionData piece0,
    .reflectAck ⟨0, []⟩, .fetchRequest 0 0 0 0 0, .fetchData 0 0 0 image0, .stepRerun,
    .parityMismatch mismatch0, .scrubRead 0 false 0, .dieCopyEnd 0 false, .shadowTestDone 0 false,
    .mgmtWatchdogExpiry, .fuelleWatchdogExpiry, .fnResetEnd 0, .pstWriteDone false false,
    .resetRelease 0 false, .bootComplete, .testStepDone none, .confirmWindowExpiry,
    .porN false (0, 0), .sysrstN, .railReset 0, .dipEntry 0,
    .dipRecovery, .dipTimeout 0, .refclkLoss false, .refclkAbsentTimeout,
    .pllLockLoss .compute 0, .pllFail .compute 0, .thermalLevel 0 0, .minorAlarm 1,
    .majorAlarm, .keyRegenDone, .keyDerived 0, .cipherKat 0 0 false,
    .signalDetect 0, .trainingTimeout 0, .identResend 0, .ident 0 flit0,
    .linkDown 0, .linkLost 0, .flitIdle 0 flit0, .flitData 0 flit0] : List Instr), wellFormed i = true := by
  decide

theorem test_well_formed_4 : ∀ i ∈ ([
    .flitMsg 0 flit0, .flitRdreq 0 flit0, .flitDrain 0 flit0, .flitDrainAck 0 flit0,
    .laneSwap 0 flit0, .fuelleData fpkt0, .fuelleParity fpkt0, .fuelleAck fpkt0,
    .fuelleOffer fpkt0, .fuelleClose fpkt0, .fuelleJoin fpkt0, .fuellePacedSend 0,
    .fuelleAckTimer 0, .fuelleOfferTimer 0, .fuelleRtoExpiry 0, .fuelleRekey 0,
    .roundQueued, .roundReady, .joinEnd, .joinLimitExpiry,
    .ingestData ipkt0, .ingestError ipkt0, .ingestReadTimeout 0 0, .glbLossScale env0 0,
    .glbLsPolicy env0 0, .coreWaitLimit env0 0 0, .epilogueSetWrite env0 0 0 0 0, .updHpWrite env0 0 0 0 0,
    .glbPlanVariant env0 0, .glbEvalCtl env0 0, .glbCommitMark env0 0, .glbMarkInterval env0 0,
    .sprLastingWindow env0 0, .sprLastingEvents env0 0, .stkScrubCtl env0 0 0, .lnkMiswirePolicy env0 0,
    .lnkDownLimit env0 0, .fulUdpPort env0 0, .fulRoundBase env0 0, .fulPace env0 0,
    .fulJoinLimit env0 0, .isxUdpPort env0 0, .isxIdleLimit env0 0, .ethIpv4 env0 0 0,
    .ethIpv6 env0 0 0 0, .ethVlan env0 0 0, .ethNexthopLo env0 0 0, .ethNexthopHi env0 0 0,
    .ethDscp env0 0 0, .ethPfc env0 0 0, .pstWearAddr env0 0, .planCommitDone,
    .fwEraseDone, .refillDone .complete, .unwrapDone, .quoteDone,
    .pllRelock .compute 0, .refclkReturn, .ethLinkChange 0 false] : List Instr), wellFormed i = true := by
  decide

/-! ### Hosts and states -/

/-- An open session of context 1 with keys of epoch 0. -/
def sess1 : Sess :=
  { Sess.reset with state := .isOpen, hostMac := 0x0200000000AA, hostIp := 0xFFFF0A000001, hostPort := 4000, devIp := 0xFFFF0A000002, saltA := 1, saltB := 2
                    hi := some 0, epochs := [0], txEpochs := [0], root := some { id := 1, key := List.replicate 32 7 } }

/-- The state with that session, on port ETH0 with its link up, no key used yet. -/
def hosted (t : State) : State :=
  { t with sess := [(1, sess1)], eth := [(0, { Eth.reset with linkUp := true })], cip := [] }

/-- A device in a state of R30, with the session. -/
def dev (d : DevState) : State := hosted { State.reset with glb := { Glb.reset with state := d } }

/-- The packet of the session's host, count 1, with the tag of the session's key. -/
def envFor (s : State) (opcode : Nat) (p : List Byte) : Env :=
  let e := { env0 with opcode := opcode, length := p.length, udpLen := 32 + p.length }
  { e with tag := BitVec.ofNat 128 (beNat (gcmSeal (isaexKey s 1 0 0) (nonceOf 1 0 0 0 1) (envHeader e) p).2) }

/-- What remains to be seen of a command in a state with the session. -/
def canServe (c : HostCmd) (p : List Byte) (t : State) : Bool :=
  c.states.contains t.glb.state && t.glb.state != .cold && t.glb.state != .booting && c.len p.length && c.ok p && c.opcode != 0x10 &&
    decide (p.length ≤ 65536) && decide (outstanding t 1 < 16) && (!t.inReset 6 && !mgmtDown t && mgmtClocked t && !t.fw.recovery && !t.pwr.unlocked.contains (.ethernet, 0))

theorem hosted_passes (t : State) (h : t.pwr.unlocked.contains (.ethernet, 0) = false) : passes (hosted t) 0 = true := by
  have e : passes (hosted t) 0 = !t.pwr.unlocked.contains (.ethernet, 0) := rfl
  rw [e, h]
  rfl

/-- The first use of a key with lengths that are allowed is served. -/
theorem request_first (s : State) (d : Nat) (k : KeyName) (aad n : Nat) (hs : (s.cipher d).uses = []) (ha : 1 ≤ aad ∧ aad ≤ 256)
    (hn : n ≤ 65536) : requestOk aad n = true ∧ (requestKey s d k aad n).2 = true := by
  have ho : requestOk aad n = true := by simp only [requestOk, decide_eq_true_eq]; omega
  have hu : (s.cipher d).useOf k = { name := k, calls := 0, bytes := 0, spent := false } := by unfold Cip.useOf; rw [hs]; rfl
  refine ⟨ho, ?_⟩
  unfold requestKey
  rw [ho, hu]
  simp only [Bool.not_true, Bool.false_eq_true, if_false, KeyUse.fits, Bool.not_false, Bool.true_and, decide_eq_true_eq]
  omega

theorem accepts_hosted (c : HostCmd) (p : List Byte) (t : State) (h : canServe c p t = true) :
    Accepts c (envFor (hosted t) c.opcode p) p (hosted t) := by
  simp only [canServe, Bool.and_eq_true, decide_eq_true_eq, bne_iff_ne, ne_eq, Bool.not_eq_true'] at h
  obtain ⟨⟨⟨⟨⟨⟨⟨⟨h1, h2⟩, h3⟩, h4⟩, h5⟩, h6⟩, hl⟩, h7⟩, ⟨⟨⟨h8, h9⟩, h9'⟩, h10⟩, h11⟩ := h
  have hs : (hosted t).session 1 = sess1 := rfl
  have e1 : (envFor (hosted t) c.opcode p).context = 1 := rfl
  have e2 : (envFor (hosted t) c.opcode p).seq = 1 := rfl
  refine ⟨Nat.zero_lt_two, hosted_passes t h11, h8, ⟨rfl, (by decide : 1 / 0x2000 = 0), rfl, rfl⟩, ⟨rfl, rfl, rfl, rfl⟩, ⟨h4, h5⟩, ⟨h2, h3⟩, List.elem_iff.mp h1, Or.inl ⟨h9, h9'⟩, Or.inl h10, ?_⟩
  rw [if_neg (by rw [e1]; decide)]
  refine ⟨⟨by rw [e1, hs]; decide, ⟨rfl, rfl⟩, by rw [e1, hs, e2]; decide, by rw [e1, hs, e2]; decide, request_first _ _ _ _ _ rfl (by decide) hl, ?_⟩, h6, ?_, Or.inl h7⟩
  · rw [e1, hs, e2]
    exact beq_iff_eq.mpr rfl
  · rw [e1, hs]
    intro h
    cases h

/-- The packet of a host without a session. -/
def envLess (opcode : Nat) (p : List Byte) : Env :=
  { env0 with opcode := opcode, length := p.length, udpLen := 32 + p.length, context := 0 }

theorem accepts_sessionless (c : HostCmd) (p : List Byte) (t : State) (h : (c.states.contains t.glb.state && t.glb.state != .cold &&
    t.glb.state != .booting && c.len p.length && c.ok p && sessionlessOpcode c.opcode &&
    (!t.inReset 6 && !mgmtDown t && mgmtClocked t && !t.fw.recovery && !t.pwr.unlocked.contains (.ethernet, 0))) = true) (hr : t.isx.rate = []) :
    Accepts c (envLess c.opcode p) p (hosted t) := by
  simp only [Bool.and_eq_true, bne_iff_ne, ne_eq, Bool.not_eq_true'] at h
  obtain ⟨⟨⟨⟨⟨⟨h1, h2⟩, h3⟩, h4⟩, h5⟩, h6⟩, ⟨⟨⟨h8, h9⟩, h9'⟩, h10⟩, h11⟩ := h
  refine ⟨Nat.zero_lt_two, hosted_passes t h11, h8, ⟨rfl, (by decide : 0 / 0x2000 = 0), rfl, rfl⟩, ⟨rfl, rfl, rfl, rfl⟩, ⟨h4, h5⟩, ⟨h2, h3⟩, List.elem_iff.mp h1, Or.inl ⟨h9, h9'⟩, Or.inl h10, ?_⟩
  refine (if_pos rfl).mpr ⟨h6, rfl, ?_⟩
  have hx : (hosted t).isx.rate = [] := hr
  simp [rateOk, hx, tget]

/-! ### Witnesses of the statements: steps, sessions, registers -/


theorem witness_EmptyQueueIdles : State.reset.pending = [] ∧ State.reset.glb.state ≠ .running ∧ (State.reset.ether 0).c2 = [] ∧ (State.reset.ether 1).c2 = [] ∧ ({ State.reset with pwr := { Pwr.reset with refPresent := false } } : State).pwr.refPresent = false := by
  decide

theorem witness_OnlyIllFormedCommandsStop : wellFormed .phaseStart = true ∧ wellFormed (.ctlKick 479) = true ∧ wellFormed (.ctlKick 480) = false := by
  decide

theorem witness_ExecKeepsQueue : ∃ t, exec .refclkReturn State.reset = .next t := ⟨_, rfl⟩

theorem witness_StepKeepsMemoryForm : MemoryCanonical State.reset ∧ ∃ t, step State.reset = .next t := ⟨memoryCanonical_reset, _, rfl⟩

theorem witness_CommandWithoutServiceIsTurnedAway :
    env0.port < 2 ∧ (dev .cold).glb.state = .cold ∧ passes (dev .booting) 0 = true ∧ (dev .booting).glb.state = .booting ∧
    (dev .needsRepair).glb.state ≠ .isolated ∧ (dev .ready).glb.state ≠ .isolated ∧
    Accepts { opcode := 0x30, states := inAll, len := fun n => decide (9 ≤ n ∧ n ≤ 8960), ok := fun _ => true,
              urgent := false } (envFor (dev .needsRepair) 0x30 (List.replicate 9 0)) (List.replicate 9 0) (dev .needsRepair) ∧
    Accepts { opcode := 0x30, states := inAll, len := fun n => decide (9 ≤ n ∧ n ≤ 8960), ok := fun _ => true,
              urgent := false } (envFor (dev .ready) 0x30 (List.replicate 9 0)) (List.replicate 9 0) (dev .ready) :=
  ⟨by decide, rfl, by decide, rfl, by decide, by decide, accepts_hosted _ _ _ (by decide), accepts_hosted _ _ _ (by decide)⟩

/-- A device with one event in its ring. -/
def eventful : State :=
  { State.reset with glb := { Glb.reset with state := .ready }
                     isx := { Isx.reset with ring := [{ index := 0, code := 5, step := 0, tick := 0, detail := [] }], nextEvent := 1 } }

theorem witness_SessionCommandsComplete :
    Accepts (plainCmd 0x11 inAll 0 fun _ => true) (envFor (dev .ready) 0x11 []) [] (dev .ready) ∧
    Accepts (plainCmd 0x12 inAll 0 fun _ => true) (envFor (dev .ready) 0x12 []) [] (dev .ready) ∧
    Accepts (plainCmd 0x13 inAll 0 fun _ => true) (envFor (dev .alarm) 0x13 []) [] (dev .alarm) ∧
    Accepts (plainCmd 0x15 inAll 8 fun p => resv0 p 4 4) (envFor (dev .ready) 0x15 [0, 0, 0, 1, 0, 0, 0, 0]) [0, 0, 0, 1, 0, 0, 0, 0] (dev .ready) ∧
    Accepts (plainCmd 0x16 inAll 8 fun p => resv0 p 4 4) (envFor (hosted eventful) 0x16 (List.replicate 8 0)) (List.replicate 8 0) (hosted eventful) ∧
    (hosted eventful).isx.ring.find? (fun x => x.index == be (List.replicate 8 0) 0 4) = some { index := 0, code := 5, step := 0, tick := 0, detail := [] } :=
  ⟨accepts_hosted _ _ _ (by decide), accepts_hosted _ _ _ (by decide), accepts_hosted _ _ _ (by decide), accepts_hosted _ _ _ (by decide),
   accepts_hosted _ _ _ (by decide), by decide⟩

/-- An ISOLATED device with a root key of its owner. -/
def owned : State :=
  { State.reset with glb := { Glb.reset with state := .isolated }, keys := { State.reset.keys with owner := some { id := 1, key := List.replicate 32 7 } } }

theorem witness_SessionOpens :
    Accepts { opcode := 0x10, states := inAll, len := fun n => n == 8, ok := fun p => be p 0 8 != 0,
              urgent := false } (envLess 0x10 [0, 0, 0, 0, 0, 0, 0, 1]) [0, 0, 0, 0, 0, 0, 0, 1] (hosted owned) ∧
    (hosted owned).keys.owner.isSome = true ∧ liveSessions (hosted owned) < 256 ∧ openingSessions (hosted owned) < 8 ∧
    freeContext (hosted owned) 0 = some 2 :=
  ⟨accepts_sessionless _ _ _ (by decide) rfl, by decide, by decide, by decide, by decide +kernel⟩

/-- A READY device at a tick, with a session in a state. -/
def sessionAt (st : SessState) (tick idle : Nat) : State :=
  { State.reset with glb := { Glb.reset with state := .ready }, sess := [(5, { sess1 with state := st })], pwr := { Pwr.reset with tick := tick }
                     isx := { Isx.reset with idleLimit := idle } }

theorem witness_SessionTimeoutsFree :
    ((sessionAt .opening 100000000 0).session 5).state = .opening ∧ ((sessionAt .opening 100000000 0).session 5).opening = none ∧
    (sessionAt .opening 100000000 0).pwr.tick - ((sessionAt .opening 100000000 0).session 5).repliedAt ≥ 100000000 ∧
    ((sessionAt .isOpen 300000 3).session 5).state ≠ .free ∧ (sessionAt .isOpen 300000 3).isx.idleLimit ≠ 0 ∧
    (sessionAt .isOpen 300000 3).pwr.tick - ((sessionAt .isOpen 300000 3).session 5).lastTick ≥ 100000 * 3 ∧
    (sessionAt .opening 99999999 0).pwr.tick - ((sessionAt .opening 99999999 0).session 5).repliedAt < 100000000 ∧
    (sessionAt .isOpen 299999 3).pwr.tick - ((sessionAt .isOpen 299999 3).session 5).lastTick < 100000 * (sessionAt .isOpen 299999 3).isx.idleLimit := by
  decide

/-- Parameters of a REG_READ of one word, the last of register space. -/
def readLast : List Byte := beBytes 8 0xF00002FFFFFC ++ beBytes 2 1 ++ List.replicate 6 0

theorem witness_RegisterReadsComplete :
    Accepts (plainCmd 0x20 inAll 16 fun p => regOk p && resv0 p 10 6) (envFor (dev .ready) 0x20 readLast) readLast (dev .ready) ∧
    inRegSpace (regAddr readLast) = true ∧ inRegSpace (regAddr readLast + 4 * regCount readLast - 1) = true ∧
    Accepts (plainCmd 0xA0 inIRUQN 0 fun _ => true) (envFor (dev .needsRepair) 0xA0 []) [] (dev .needsRepair) :=
  ⟨accepts_hosted _ _ _ (by decide), by decide, by decide, accepts_hosted _ _ _ (by decide)⟩

theorem witness_RegisterWriteCompletes :
    Accepts (regWriteCmd (oneWord 0x88 3)) (envFor (dev .ready) 0x21 (oneWord 0x88 3)) (oneWord 0x88 3) (dev .ready) :=
  accepts_hosted _ _ _ (by decide)

/-- A REG_WRITE of one word is accepted in each state that the statements below name. -/
theorem word_accepted (off : Nat) (v : W32) (t : State) (h : canServe (regWriteCmd (oneWord off v)) (oneWord off v) t = true) :
    WordAccepted off v (envFor (hosted t) 0x21 (oneWord off v)) (hosted t) :=
  accepts_hosted _ _ _ h

/-- A READY device whose plan has a fallback table. -/
def plan0 : Plan :=
  { gen := 1, features := 0, seed := 0, pos := (0, 0, 0), dims := (1, 1, 1), vdef := 0, fbk := true, e := 0, h := 0, p := 0, v := 0, m := 0
    ring := 0, digest := [], copies := [], main := [], fall := [], routes := [], update := [], hpsched := [], regions := [], part := 1
    bmask := 1, wires := [], fuelle := none, ingEval := none, streams := [] }
def planned : State := { State.reset with glb := { Glb.reset with state := .ready }, run := { Run.reset with plan := some plan0 } }

theorem witness_DeviceRegisterRowsComplete :
    WordAccepted 0x88 0xF2 (envFor (dev .isolated) 0x21 (oneWord 0x88 0xF2)) (dev .isolated) ∧ (dev .isolated).glb.state = .isolated ∧
    -14 ≤ signedOf 8 ((0xF2 : W32).toNat % 256) ∧ signedOf 8 ((24 : W32).toNat % 256) ≤ 24 ∧
    WordAccepted 0x88 24 (envFor (dev .ready) 0x21 (oneWord 0x88 24)) (dev .ready) ∧ (dev .ready).glb.state = .ready ∧
    WordAccepted 0x8C 0 (envFor (dev .ready) 0x21 (oneWord 0x8C 0)) (dev .ready) ∧
    WordAccepted 0xA4 1 (envFor (dev .alarm) 0x21 (oneWord 0xA4 1)) (dev .alarm) ∧ (1 : W32).toNat % 65536 ≠ 0 ∧
    WordAccepted 0xC8 0 (envFor (dev .ready) 0x21 (oneWord 0xC8 0)) (dev .ready) ∧
    WordAccepted 0xC8 1 (envFor (hosted planned) 0x21 (oneWord 0xC8 1)) (hosted planned) ∧ (hosted planned).glb.state = .ready ∧
    (hosted planned).run.plan.map (·.fbk) = some true ∧
    WordAccepted 0xD8 0x80000000 (envFor (dev .ready) 0x21 (oneWord 0xD8 0x80000000)) (dev .ready) ∧
    WordAccepted 0x600F04 0xF4240 (envFor (dev .ready) 0x21 (oneWord 0x600F04 0xF4240)) (dev .ready) ∧ 0xF4240 ≤ (0xF4240 : W32).toNat ∧
    WordAccepted 0x400008 1 (envFor (dev .ready) 0x21 (oneWord 0x400008 1)) (dev .ready) ∧
    WordAccepted 0x400008 100 (envFor (dev .ready) 0x21 (oneWord 0x400008 100)) (dev .ready) ∧
    WordAccepted 0x40000C 1 (envFor (dev .ready) 0x21 (oneWord 0x40000C 1)) (dev .ready) ∧ (1 : W32) ≠ 0 ∧
    WordAccepted 0x70008 0 (envFor (dev .ready) 0x21 (oneWord 0x70008 0)) (dev .ready) ∧
    WordAccepted 0x40008 0x3FFFFFF (envFor (dev .ready) 0x21 (oneWord 0x40008 0x3FFFFFF)) (dev .ready) :=
  ⟨word_accepted _ _ _ (by decide), rfl, by decide, by decide, word_accepted _ _ _ (by decide), rfl, word_accepted _ _ _ (by decide),
   word_accepted _ _ _ (by decide), by decide, word_accepted _ _ _ (by decide), word_accepted _ _ planned (by decide), rfl, rfl, word_accepted _ _ _ (by decide),
   word_accepted _ _ _ (by decide), by decide, word_accepted _ _ _ (by decide), word_accepted _ _ _ (by decide), word_accepted _ _ _ (by decide),
   by decide, word_accepted _ _ _ (by decide), word_accepted _ _ _ (by decide)⟩

theorem witness_UnitRegisterRowsComplete :
    WordAccepted (0x2000008 + 0x1000 * 479) 7 (envFor (dev .ready) 0x21 (oneWord (0x2000008 + 0x1000 * 479) 7)) (dev .ready) ∧
    WordAccepted (0x2400100 + 0x1000 * 479 + 16 * 7 + 4 * 3) 7 (envFor (dev .isolated) 0x21 (oneWord (0x2400100 + 0x1000 * 479 + 16 * 7 + 4 * 3) 7)) (dev .isolated) ∧
    WordAccepted (0xA00100 + 0x10000 * 19 + 64 * 7 + 4 * 6) 7 (envFor (dev .ready) 0x21 (oneWord (0xA00100 + 0x10000 * 19 + 64 * 7 + 4 * 6) 7)) (dev .ready) ∧
    WordAccepted (0x800014 + 0x10000 * 19) 1 (envFor (dev .ready) 0x21 (oneWord (0x800014 + 0x10000 * 19) 1)) (dev .ready) ∧
    WordAccepted (0x30002C + 0x10000 * 1) 0 (envFor (dev .ready) 0x21 (oneWord (0x30002C + 0x10000 * 1) 0)) (dev .ready) ∧
    WordAccepted (0x300030 + 0x10000 * 1) 0 (envFor (dev .ready) 0x21 (oneWord (0x300030 + 0x10000 * 1) 0)) (dev .ready) :=
  ⟨word_accepted _ _ _ (by decide), word_accepted _ _ _ (by decide), word_accepted _ _ _ (by decide), word_accepted _ _ _ (by decide),
   word_accepted _ _ _ (by decide), word_accepted _ _ _ (by decide)⟩

/-- The store of a fresh device takes a write of a value that an index does not hold. -/
theorem store_takes (ix v : Nat) (d : DevState) (h : decide (pstValue (dev d) ix ≠ v) = true) : StoreTakes ix v (dev d) :=
  ⟨rfl, of_decide_eq_true h, (by decide : (0 : Nat) < enduranceLimit), rfl, (by decide : ([] : List PstWrite).length < 16)⟩


theorem witness_StoredRegisterRowsComplete :
    (WordAccepted 0xA0 5 (envFor (dev .ready) 0x21 (oneWord 0xA0 5)) (dev .ready) ∧ (dev .ready).glb.state = .ready ∧
      StoreTakes ixCommitMark (5 : W32).toNat (dev .ready)) ∧
    (WordAccepted 0x60000 0x10000 (envFor (dev .alarm) 0x21 (oneWord 0x60000 0x10000)) (dev .alarm) ∧ 0x10000 ≤ (0x10000 : W32).toNat ∧
      StoreTakes ixWindow (0x10000 : W32).toNat (dev .alarm)) ∧
    (WordAccepted 0x60004 2 (envFor (dev .ready) 0x21 (oneWord 0x60004 2)) (dev .ready) ∧ 2 ≤ (2 : W32).toNat % 256 ∧
      StoreTakes ixEvents ((2 : W32).toNat % 256) (dev .ready)) ∧
    (WordAccepted 0x600F00 1 (envFor (dev .isolated) 0x21 (oneWord 0x600F00 1)) (dev .isolated) ∧ (dev .isolated).glb.state = .isolated ∧
      StoreTakes ixMiswire ((1 : W32).toNat % 2) (dev .isolated)) ∧
    (WordAccepted 0x400000 9000 (envFor (dev .isolated) 0x21 (oneWord 0x400000 9000)) (dev .isolated) ∧ fulIdle (dev .isolated) = true ∧
      (9000 : W32).toNat % 65536 ≠ 0 ∧ (9000 : W32).toNat % 65536 ≠ pstLatest (dev .isolated) ixIsxPort ∧
      (9000 : W32).toNat % 65536 ≠ (dev .isolated).isx.port ∧ StoreTakes ixFulPort ((9000 : W32).toNat % 65536) (dev .isolated)) ∧
    (WordAccepted 0x400004 7 (envFor (dev .isolated) 0x21 (oneWord 0x400004 7)) (dev .isolated) ∧ StoreTakes ixRoundBase (7 : W32).toNat (dev .isolated)) ∧
    (WordAccepted 0x70000 9000 (envFor (dev .ready) 0x21 (oneWord 0x70000 9000)) (dev .ready) ∧
      (9000 : W32).toNat % 65536 ≠ pstLatest (dev .ready) ixFulPort ∧ (9000 : W32).toNat % 65536 ≠ pstValue (dev .ready) ixFulPort ∧
      (9000 : W32).toNat % 65536 ∉ planLports (dev .ready) ∧ StoreTakes ixIsxPort ((9000 : W32).toNat % 65536) (dev .ready)) ∧
    (WordAccepted (0x30000C + 0x10000 * 1) 0x0A000001 (envFor (dev .ready) 0x21 (oneWord (0x30000C + 0x10000 * 1) 0x0A000001)) (dev .ready) ∧
      ipv4Ok (0x0A000001 : W32).toNat = true ∧ StoreTakes (ixEth 1 0) (0x0A000001 : W32).toNat (dev .ready)) ∧
    (WordAccepted (0x300010 + 0x10000 * 1 + 4 * 3) 0x20010000 (envFor (dev .ready) 0x21 (oneWord (0x300010 + 0x10000 * 1 + 4 * 3) 0x20010000)) (dev .ready) ∧
      (0x20010000 : W32).toNat / 2 ^ 24 ≠ 255 ∧ StoreTakes (ixEth 1 (1 + 3)) (0x20010000 : W32).toNat (dev .ready)) ∧
    (WordAccepted (0x300020 + 0x10000 * 1) 0x8FFE (envFor (dev .ready) 0x21 (oneWord (0x300020 + 0x10000 * 1) 0x8FFE)) (dev .ready) ∧
      ((0x8FFE : W32).toNat % 4096 ≠ 0 ∧ (0x8FFE : W32).toNat % 4096 ≠ 0xFFF) ∧
      StoreTakes (ixEth 1 5) ((0x8FFE : W32).toNat % 4096 + b2n ((0x8FFE : W32).getLsbD 15) * 2 ^ 15) (dev .ready)) ∧
    (WordAccepted (0x300024 + 0x10000 * 1) 3 (envFor (dev .ready) 0x21 (oneWord (0x300024 + 0x10000 * 1) 3)) (dev .ready) ∧
      StoreTakes (ixEth 1 6) (3 : W32).toNat (dev .ready)) ∧
    (WordAccepted (0x300028 + 0x10000 * 1) 0x0200 (envFor (dev .ready) 0x21 (oneWord (0x300028 + 0x10000 * 1) 0x0200)) (dev .ready) ∧
      (0x0200 : W32).getLsbD 8 = false ∧ StoreTakes (ixEth 1 7) ((0x0200 : W32).toNat % 65536) (dev .ready)) := by
  refine ⟨⟨word_accepted _ _ _ (by decide), rfl, store_takes _ _ _ (by decide)⟩,
    ⟨word_accepted _ _ _ (by decide), by decide, store_takes _ _ _ (by decide)⟩,
    ⟨word_accepted _ _ _ (by decide), by decide, store_takes _ _ _ (by decide)⟩,
    ⟨word_accepted _ _ _ (by decide), rfl, store_takes _ _ _ (by decide)⟩,
    ⟨word_accepted _ _ _ (by decide), rfl, by decide, by decide, by decide, store_takes _ _ _ (by decide)⟩,
    ⟨word_accepted _ _ _ (by decide), store_takes _ _ _ (by decide)⟩,
    ⟨word_accepted _ _ _ (by decide), by decide, by decide, by decide, store_takes _ _ _ (by decide)⟩,
    ⟨word_accepted _ _ _ (by decide), by decide, store_takes _ _ _ (by decide)⟩,
    ⟨word_accepted _ _ _ (by decide), by decide, store_takes _ _ _ (by decide)⟩,
    ⟨word_accepted _ _ _ (by decide), by decide, store_takes _ _ _ (by decide)⟩,
    ⟨word_accepted _ _ _ (by decide), store_takes _ _ _ (by decide)⟩,
    ⟨word_accepted _ _ _ (by decide), by decide, store_takes _ _ _ (by decide)⟩⟩

theorem witness_WaitLimitWriteStates :
    (dev .isolated).glb.state = .isolated ∧ (dev .ready).glb.state = .ready ∧ (dev .running).glb.state ≠ .isolated ∧ (dev .running).glb.state ≠ .ready := by
  decide

theorem witness_DownLimitWriteRule :
    (dev .ready).glb.state = .ready ∧ 0x000F4240 ≤ 1000000 ∧ 999999 < 0x000F4240 ∧ (dev .running).glb.state ≠ .isolated ∧
    (dev .running).glb.state ≠ .ready := by decide

theorem witness_PlanSpaceCommandsComplete :
    (Accepts { opcode := 0x30, states := inI, len := fun n => decide (9 ≤ n ∧ n ≤ 8960), ok := fun _ => true,
               urgent := false } (envFor (dev .isolated) 0x30 (beBytes 8 0x13FFFFFFF ++ [7])) (beBytes 8 0x13FFFFFFF ++ [7]) (dev .isolated) ∧
      MemoryCanonical (dev .isolated) ∧ (dev .isolated).long.commit = none ∧
      be (beBytes 8 0x13FFFFFFF ++ [7]) 0 8 + ((beBytes 8 0x13FFFFFFF ++ [7]).length - 8) ≤ planSpace) ∧
    Accepts (plainCmd 0x31 inIRUQ 16 fun p => resv0 p 12 4 && decide (1 ≤ be p 8 4 ∧ be p 8 4 ≤ 8960))
        (envFor (dev .ready) 0x31 (beBytes 8 0x13FFFFFFF ++ beBytes 4 1 ++ [0, 0, 0, 0])) (beBytes 8 0x13FFFFFFF ++ beBytes 4 1 ++ [0, 0, 0, 0]) (dev .ready) ∧
    be (beBytes 8 0x13FFFFFFF ++ beBytes 4 1 ++ [0, 0, 0, 0]) 0 8 + be (beBytes 8 0x13FFFFFFF ++ beBytes 4 1 ++ [0, 0, 0, 0]) 8 4 ≤ planSpace :=
  ⟨⟨accepts_hosted _ _ _ (by decide), memoryCanonical_reset, rfl, by decide⟩, accepts_hosted _ _ _ (by decide), by decide⟩

/-! ### Witnesses: plan, steps, urgent commands, resets -/

/-- An ISOLATED device that is at order 6 of a commit of `plan0`, resumed or not. -/
def committing (p : Plan) : State :=
  { State.reset with
    glb := { Glb.reset with state := .isolated }
    run := { Run.reset with committing := some (p, false, savedOf State.reset) }
    long := { Long.reset with commit := some env0 } }

/-- `plan0` with a used port 0 that no neighbour is on. -/
def planWired : Plan := { plan0 with wires := [{ use := 1, nport := 3, nserial := 9 }] }

theorem witness_PlanCommitCompletes_end :
    ((committing plan0).run.committing = some (plan0, false, savedOf State.reset) ∧ (committing plan0).long.commit = some env0 ∧
      (committing plan0).glb.state = .isolated ∧ (committing plan0).run.plan = none ∧
      foreignPorts (committing plan0) plan0 ((usedEntries plan0).map (·.1)) = [] ∧ wiringMap (committing plan0) plan0 = some [] ∧
      foreignPorts (committing plan0) plan0 (([] : List (Nat × Nat)).map (·.2)) = [] ∧ buddyWired (committing plan0) plan0 = true ∧
      bit plan0.bmask (committing plan0).lnk.bpos = true) ∧
    ((committing planWired).run.committing = some (planWired, false, savedOf State.reset) ∧
      foreignPorts (committing planWired) planWired ((usedEntries planWired).map (·.1)) = [] ∧ wiringMap (committing planWired) planWired = none) := by
  refine ⟨⟨rfl, rfl, rfl, rfl, ?_, ?_, ?_, ?_, ?_⟩, rfl, ?_, ?_⟩ <;> decide

theorem witness_PlanReleaseCompletes :
    Accepts (plainCmd 0x33 inR 0 fun _ => true) (envFor (hosted planned) 0x33 []) [] (hosted planned) :=
  accepts_hosted _ _ _ (by decide)

/-- A run in a step, with a region for evaluation results. -/
def planEval : Plan := { plan0 with regions := [{ base := 0x100, length := 0x10, kind := 6 }] }
def running : State :=
  { State.reset with glb := { Glb.reset with state := .running }, run := { Run.reset with plan := some planEval, step := 3, phase := 0 } }

/-- Offset and length of an EVAL_READ at the end of that region. -/
def evalArgs : List Byte := beBytes 8 0x10F ++ beBytes 4 1 ++ [0, 0, 0, 0]

theorem witness_StepCommandsComplete :
    (Accepts (plainCmd 0x40 inR 8 fun p => resv0 p 4 4) (envFor (hosted planned) 0x40 (List.replicate 8 0)) (List.replicate 8 0) (hosted planned) ∧
      (∀ n ∈ usedPorts (hosted planned), ((hosted planned).port n).state = 4) ∧ (∀ c ∈ (hosted planned).fctx, c.2.state ≠ 3) ∧
      (hosted planned).inReset 1 = false ∧ (hosted planned).inReset 2 = false ∧ (hosted planned).inReset 3 = false) ∧
    (Accepts (plainCmd 0x41 inUQ 0 fun _ => true) (envFor (hosted running) 0x41 []) [] (hosted running) ∧ runInProgress (hosted running) = true) ∧
    Accepts (plainCmd 0x42 inIRUQ 0 fun _ => true) (envFor (dev .isolated) 0x42 []) [] (dev .isolated) ∧
    (Accepts (plainCmd 0x50 inRUQ 16 fun p => resv0 p 12 4 && decide (1 ≤ be p 8 4 ∧ be p 8 4 ≤ 8960)) (envFor (hosted running) 0x50 evalArgs) evalArgs (hosted running) ∧
      (hosted running).run.plan = some planEval ∧ withinKind planEval 6 (be evalArgs 0 8) (be evalArgs 8 4) = true) ∧
    Accepts (plainCmd 0x51 inRUQ 0 fun _ => true) (envFor (hosted running) 0x51 []) [] (hosted running) :=
  ⟨⟨accepts_hosted _ _ _ (by decide), by decide, by decide, by decide, by decide, by decide⟩, ⟨accepts_hosted _ _ _ (by decide), by decide⟩, accepts_hosted _ _ _ (by decide),
   ⟨accepts_hosted _ _ _ (by decide), rfl, by decide⟩, accepts_hosted _ _ _ (by decide)⟩

/-- A device QUIESCED from READY, parked or still parking. -/
def quiesced (parking : Bool) : State :=
  { State.reset with glb := { Glb.reset with state := .quiesced, prior := some .ready }, isx := { Isx.reset with parking := parking } }

theorem witness_UrgentCommandsComplete :
    (Accepts (urgentCmd 1 0 fun _ => true) (envFor (hosted running) 1 []) [] (hosted running) ∧ (hosted running).glb.state = .running) ∧
    (Accepts (urgentCmd 1 0 fun _ => true) (envFor (dev .alarm) 1 []) [] (dev .alarm) ∧ (dev .alarm).glb.state = .alarm ∧ (dev .alarm).isx.parking = false) ∧
    (Accepts (urgentCmd 2 0 fun _ => true) (envFor (hosted (quiesced false)) 2 []) [] (hosted (quiesced false)) ∧
      (hosted (quiesced false)).glb.state = .quiesced ∧ (hosted (quiesced false)).isx.parking = false ∧
      (hosted (quiesced false)).run.ending = false ∧ (hosted (quiesced false)).run.releaseAtResume = false) ∧
    (Accepts (urgentCmd 2 0 fun _ => true) (envFor (dev .ready) 2 []) [] (dev .ready) ∧ (dev .ready).glb.state ≠ .quiesced) ∧
    Accepts (urgentCmd 3 8 fun p => decide (be p 0 2 = 0)) (envFor (dev .ready) 3 [0, 0, 0x80, 0, 0, 0, 0, 1]) [0, 0, 0x80, 0, 0, 0, 0, 1] (dev .ready) ∧
    ((quiesced true).isx.parking = true ∧ parked (quiesced true) = true ∧ (quiesced true).isx.resumeWait = []) :=
  ⟨⟨accepts_hosted _ _ _ (by decide), rfl⟩, ⟨accepts_hosted _ _ _ (by decide), rfl, rfl⟩, ⟨accepts_hosted _ _ _ (by decide), rfl, rfl, rfl, rfl⟩,
   ⟨accepts_hosted _ _ _ (by decide), by decide⟩, accepts_hosted _ _ _ (by decide), rfl, by decide +kernel, rfl⟩

/-- A READY device with one function in reset. -/
def inFnReset (fn : Nat) : State :=
  { State.reset with glb := { Glb.reset with state := .ready, fnReset := 1 <<< fn }, long := { Long.reset with fnReset := [(fn, none)] } }

theorem witness_FunctionResetsComplete :
    (Accepts (plainCmd 0x60 (if be [6, 0, 0, 0, 0, 0, 0, 0] 0 1 = 0 then inAll else inIRUQN) 8 fun p => decide (be p 0 1 ≤ 6) && resv0 p 1 7)
        (envFor (dev .ready) 0x60 [6, 0, 0, 0, 0, 0, 0, 0]) [6, 0, 0, 0, 0, 0, 0, 0] (dev .ready) ∧
      (dev .ready).inReset (be [6, 0, 0, 0, 0, 0, 0, 0] 0 1) = false) ∧
    (Accepts (plainCmd 0x60 (if be [0, 0, 0, 0, 0, 0, 0, 0] 0 1 = 0 then inAll else inIRUQN) 8 fun p => decide (be p 0 1 ≤ 6) && resv0 p 1 7)
        (envFor (dev .alarm) 0x60 [0, 0, 0, 0, 0, 0, 0, 0]) [0, 0, 0, 0, 0, 0, 0, 0] (dev .alarm) ∧
      (dev .alarm).inReset (be [0, 0, 0, 0, 0, 0, 0, 0] 0 1) = false) ∧
    (Accepts (plainCmd 0x60 (if be [1, 0, 0, 0, 0, 0, 0, 0] 0 1 = 0 then inAll else inIRUQN) 8 fun p => decide (be p 0 1 ≤ 6) && resv0 p 1 7)
        (envFor (hosted (inFnReset 1)) 0x60 [1, 0, 0, 0, 0, 0, 0, 0]) [1, 0, 0, 0, 0, 0, 0, 0] (hosted (inFnReset 1)) ∧
      (hosted (inFnReset 1)).inReset (be [1, 0, 0, 0, 0, 0, 0, 0] 0 1) = true) ∧
    (tfind (inFnReset 6).long.fnReset 6 = some none ∧ (inFnReset 6).isx.held = []) ∧
    (working (dev .needsRepair) = true ∧ (dev .needsRepair).glb.state ≠ .alarm) :=
  ⟨⟨accepts_hosted _ _ _ (by decide), by decide⟩, ⟨accepts_hosted _ _ _ (by decide), by decide⟩, ⟨accepts_hosted _ _ _ (by decide), by decide⟩,
   by decide, by decide⟩

/-! ### Witnesses: Fuelle, firmware, identity, spares, links and ingest -/

/-- A plan with one partner on I/O die 0, steps of one round each. -/
def sched0 : FulSched :=
  { g := 1, s := 1, decay := 0, odepth := 1, rdepth := 1, selfW := 0x3F800000, schedId := 1, rxStage := 0, joinBase := 0, tensors := []
    partners := [{ iod := 0, ubytes := 0, txBase := 0, txStride := 0, rxBase := 0, rxStride := 0 }], pieces := [] }
def planFul : Plan := { plan0 with h := 1, fuelle := some sched0 }
def fuelled : State :=
  { State.reset with glb := { Glb.reset with state := .ready }, run := { Run.reset with plan := some planFul }
                     keys := { State.reset.keys with cur := some { id := 2, key := List.replicate 32 9 } } }

/-- FUL_OPEN of context 7 with K 8, M 2, PSZ 1024 and weight 1; slot 0 or 1. -/
def openArgs (slot : Byte) : List Byte :=
  [0, 7, 0, 9] ++ List.replicate 16 3 ++ [0x13, 0x88, 0, slot, 0, 8, 2, 0, 0, 0, 4, 0] ++ [0x3F, 0x80, 0, 0] ++ List.replicate 4 0

theorem witness_FuelleCommandsComplete :
    (Accepts (plainCmd 0x70 inRUQ 40 fulOpenOk) (envFor (hosted fuelled) 0x70 (openArgs 0)) (openArgs 0) (hosted fuelled) ∧
      fulOpenStatus (served (hosted fuelled) (envFor (hosted fuelled) 0x70 (openArgs 0))) (openArgs 0) = 0) ∧
    (Accepts (plainCmd 0x70 inRUQ 40 fulOpenOk) (envFor (hosted fuelled) 0x70 (openArgs 1)) (openArgs 1) (hosted fuelled) ∧
      fulOpenStatus (served (hosted fuelled) (envFor (hosted fuelled) 0x70 (openArgs 1))) (openArgs 1) ≠ 0) ∧
    Accepts (plainCmd 0x71 inRUQ 8 fulCtxOk) (envFor (hosted fuelled) 0x71 [0x3F, 0xFF, 0, 0, 0, 0, 0, 0]) [0x3F, 0xFF, 0, 0, 0, 0, 0, 0] (hosted fuelled) ∧
    Accepts (plainCmd 0x72 inRUQ 8 fulCtxOk) (envFor (hosted fuelled) 0x72 [0, 7, 0, 0, 0, 0, 0, 0]) [0, 7, 0, 0, 0, 0, 0, 0] (hosted fuelled) :=
  ⟨⟨accepts_hosted _ _ _ (by decide), by decide +kernel⟩, ⟨accepts_hosted _ _ _ (by decide), by decide +kernel⟩, accepts_hosted _ _ _ (by decide),
   accepts_hosted _ _ _ (by decide)⟩

/-- A READY device whose area 1 is erased, or holds a manifest's first word. -/
def erased : State := { State.reset with glb := { Glb.reset with state := .ready }, fw := { Fw.reset with base := [(1, 1)] } }
def manifested : State :=
  { erased with fw := { erased.fw with flash := [(2 ^ 32, 0x46), (2 ^ 32 + 1, 0x4E), (2 ^ 32 + 2, 0x41), (2 ^ 32 + 3, 0x4D)].map fun x => (x.1, x.2) } }

/-- Slot 1, the last byte of the area, value 0x5A. -/
def writeArgs : List Byte := [1] ++ List.replicate 7 0 ++ beBytes 8 0xDFFFFFF ++ [0x5A]
def readArgs : List Byte := [1] ++ List.replicate 7 0 ++ beBytes 8 0xDFFFFFF ++ beBytes 4 1 ++ List.replicate 4 0

theorem witness_FlashCommandsComplete :
    (Accepts { plainCmd 0x80 inIRUQN 0 (fun p => slotOk p && resv0 p 1 7) with len := fun n => decide (17 ≤ n ∧ n ≤ 8960) }
        (envFor (hosted erased) 0x80 writeArgs) writeArgs (hosted erased) ∧
      slotStatus (hosted erased) (be writeArgs 0 1) true = 0 ∧ be writeArgs 8 8 + (writeArgs.length - 16) ≤ areaSize (be writeArgs 0 1) ∧
      Machine.erasing (hosted erased) (be writeArgs 0 1) = false ∧
      cellsFrom (fun k => flashDefault (hosted erased) (k / 2 ^ 32) (k % 2 ^ 32)) 0 (hosted erased).fw.flash = true) ∧
    (Accepts (plainCmd 0x81 inIRUQN 24 fwReadOk) (envFor (hosted erased) 0x81 readArgs) readArgs (hosted erased) ∧
      be readArgs 8 8 + be readArgs 16 4 ≤ areaSize (be readArgs 0 1)) ∧
    (Accepts (plainCmd 0x84 inIRUQN 8 fun p => slotOk p && resv0 p 1 7) (envFor (hosted manifested) 0x84 [1, 0, 0, 0, 0, 0, 0, 0]) [1, 0, 0, 0, 0, 0, 0, 0] (hosted manifested) ∧
      flashLe (hosted manifested) (be [1, 0, 0, 0, 0, 0, 0, 0] 0 1) 0 4 = manifestMagic) ∧
    Accepts (plainCmd 0x83 inIRUQN 0 fun _ => true) (envFor (hosted erased) 0x83 []) [] (hosted erased) :=
  ⟨⟨accepts_hosted _ _ _ (by decide), by decide, by decide, by decide, by decide⟩, ⟨accepts_hosted _ _ _ (by decide), by decide⟩,
   ⟨accepts_hosted _ _ _ (by decide), by decide⟩, accepts_hosted _ _ _ (by decide)⟩

def stageArgs (act : Byte) : List Byte := [1, act] ++ List.replicate 6 0

/-- A device whose area 1 is staged, and one that erases it. -/
def staged : State :=
  { erased with pst := { Pst.reset with table := [(ixBoot, (({ bootRec State.reset with pendingSlot := 1 } : BootRec).toNat, 1))] } }
def erasing : State := { erased with long := { Long.reset with erase := some (1, env0) } }

theorem witness_StageCommandsComplete :
    (Accepts (plainCmd 0x82 inIRUQN 8 fun p => slotOk p && decide (be p 1 1 ≤ 2) && resv0 p 2 6) (envFor (hosted erased) 0x82 (stageArgs 0)) (stageArgs 0) (hosted erased) ∧
      be (stageArgs 0) 1 1 = 0 ∧ slotStatus (hosted erased) (be (stageArgs 0) 0 1) true = 0 ∧ (hosted erased).long.erase = none) ∧
    (Accepts (plainCmd 0x82 inIRUQN 8 fun p => slotOk p && decide (be p 1 1 ≤ 2) && resv0 p 2 6) (envFor (hosted erased) 0x82 (stageArgs 1)) (stageArgs 1) (hosted erased) ∧
      be (stageArgs 1) 1 1 = 1 ∧ slotStatus (hosted erased) (be (stageArgs 1) 0 1) false = 0) ∧
    (Accepts (plainCmd 0x82 inIRUQN 8 fun p => slotOk p && decide (be p 1 1 ≤ 2) && resv0 p 2 6) (envFor (hosted staged) 0x82 (stageArgs 2)) (stageArgs 2) (hosted staged) ∧
      be (stageArgs 2) 1 1 = 2 ∧ (hosted staged).fw.trial = false ∧ (bootRecLatest (hosted staged)).pendingSlot = be (stageArgs 2) 0 1) ∧
    erasing.long.erase = some (1, env0) :=
  ⟨⟨accepts_hosted _ _ _ (by decide), by decide, by decide, rfl⟩, ⟨accepts_hosted _ _ _ (by decide), by decide, by decide⟩,
   ⟨accepts_hosted _ _ _ (by decide), by decide, by decide, by decide⟩, rfl⟩

/-- ROOT_PROVISION of the owner root key (target 0) or the current Fuelle root key (target 1), KEY_ID 3, with a key, a sealed key and a
tag. -/
def blobWith (target : Byte) (tag : List Byte) : List Byte :=
  [1, target, 0, 0, 0, 0, 0, 3] ++ (List.replicate 1088 0 ++ (List.replicate 32 0 ++ tag))

/-- The key under which a blob with that key share is sealed, and the tag that verifies. -/
def blobKey (target : Nat) : List Byte :=
  kdf (kemDecaps (fusedKey 7 0) (fusedKey 7 1) (List.replicate 1088 0)) { KdfLabel.plain 4 Config.serial with ctxA := target, saltA := BitVec.ofNat 64 3 }
def blobTag (target : Byte) : List Byte :=
  gcmTag (aesRoundKeys ((blobKey target.toNat).map BitVec.toNat)) (zeroNonce ++ [0, 0, 0, 1]) [1, target, 0, 0, 0, 0, 0, 3] (List.replicate 32 0)

theorem blob_parts (target : Byte) (tag : List Byte) :
    ((blobWith target tag).drop 8).take 1088 = List.replicate 1088 0 ∧ (blobWith target tag).take 8 = [1, target, 0, 0, 0, 0, 0, 3] ∧
    ((blobWith target tag).drop 1096).take 32 = List.replicate 32 0 ∧ (blobWith target tag).drop 1128 = tag := by
  have h8 : ([1, target, 0, 0, 0, 0, 0, 3] : List Byte).length = 8 := rfl
  have d8 : (blobWith target tag).drop 8 = List.replicate 1088 0 ++ (List.replicate 32 0 ++ tag) := List.drop_left' h8
  have d1096 : (blobWith target tag).drop 1096 = List.replicate 32 0 ++ tag := by
    have e : (1096 : Nat) = 8 + 1088 := rfl
    rw [e, ← List.drop_drop, d8]
    exact List.drop_left' (List.length_replicate ..)
  have d1128 : (blobWith target tag).drop 1128 = tag := by
    have e : (1128 : Nat) = 1096 + 32 := rfl
    rw [e, ← List.drop_drop, d1096]
    exact List.drop_left' (List.length_replicate ..)
  refine ⟨?_, List.take_left' h8, ?_, d1128⟩
  · rw [d8]; exact List.take_left' (List.length_replicate ..)
  · rw [d1096]; exact List.take_left' (List.length_replicate ..)

theorem gcmTag_length (rks : List (List Nat)) (j0 aad ct : List Byte) : (gcmTag rks j0 aad ct).length = 16 := by
  unfold gcmTag
  exact beBytes_length _ _

theorem blob_fields (tag : List Byte) : blobTarget (blobWith 1 tag) = 1 ∧ blobId (blobWith 1 tag) = 3 := ⟨rfl, rfl⟩

theorem blob_unwraps : (unwrap (blobWith 1 (blobTag 1))).isSome = true := by
  have h := blob_parts 1 (blobTag 1)
  have ht : (blobTag 1).take 16 = blobTag 1 := List.take_of_length_le (Nat.le_of_eq (gcmTag_length _ _ _ _))
  unfold unwrap
  rw [h.1, h.2.1, h.2.2.1, h.2.2.2, ht, (blob_fields _).1, (blob_fields _).2]
  unfold gcmOpen blobTag blobKey
  generalize kemDecaps _ _ _ = ss
  exact congrArg Option.isSome (if_pos rfl)

theorem blob_fails : unwrap (blobWith 1 []) = none := by
  unfold unwrap gcmOpen
  refine if_neg fun h => ?_
  rw [(blob_parts 1 []).2.2.2] at h
  have hl := congrArg List.length h
  rw [gcmTag_length] at hl
  cases hl

/-- An ISOLATED device that provisions a blob, or that takes a quote. -/
def provisioning (p : List Byte) : State := { owned with long := { Long.reset with provision := some (env0, p) } }
def quoting : State := { owned with long := { Long.reset with quote := some (env0, List.replicate 32 0) } }

/-- A device that holds the root key of KEY_ID 3 as its owner's. -/
def ownedThree : State := { owned with keys := { owned.keys with owner := some { id := 3, key := [] } } }

theorem witness_IdentityCommandsComplete :
    Accepts (plainCmd 0x90 inAll 8 (fun p => be p 0 2 == 0 && resv0 p 2 6))
      (envLess 0x90 (List.replicate 8 0)) (List.replicate 8 0) (dev .ready) ∧
    Accepts (plainCmd 0x91 inAll 8 (fun p => be p 0 2 == 0 && resv0 p 2 6))
      (envLess 0x91 (List.replicate 8 0)) (List.replicate 8 0) (dev .ready) ∧
    (Accepts rootCmd (envFor (hosted ownedThree) 0x92 (blobWith 0 (List.replicate 16 0))) (blobWith 0 (List.replicate 16 0)) (hosted ownedThree) ∧
      alreadyHeld (hosted ownedThree) (blobWith 0 (List.replicate 16 0)) = true) ∧
    (Accepts rootCmd (envFor (hosted owned) 0x92 (blobWith 0 (List.replicate 16 0))) (blobWith 0 (List.replicate 16 0)) (hosted owned) ∧
      alreadyHeld (hosted owned) (blobWith 0 (List.replicate 16 0)) = false ∧
      mayProvision (hosted owned) (envFor (hosted owned) 0x92 (blobWith 0 (List.replicate 16 0))) (blobWith 0 (List.replicate 16 0)) = true ∧
      (hosted owned).long.provision = none ∧ (hosted owned).keys.kem = true) ∧
    (Accepts (plainCmd 0x93 inAll 32 fun _ => true) (envFor (hosted owned) 0x93 (List.replicate 32 0)) (List.replicate 32 0) (hosted owned) ∧
      (hosted owned).keys.identity = true ∧ (hosted owned).long.quote = none) ∧
    quoting.long.quote = some (env0, List.replicate 32 0) ∧
    ((provisioning (blobWith 1 [])).long.provision = some (env0, blobWith 1 []) ∧ sealing (provisioning (blobWith 1 [])) = false ∧
      unwrap (blobWith 1 []) = none) ∧
    ((provisioning (blobWith 1 (blobTag 1))).long.provision = some (env0, blobWith 1 (blobTag 1)) ∧ sealing (provisioning (blobWith 1 (blobTag 1))) = false ∧
      (∃ k, unwrap (blobWith 1 (blobTag 1)) = some k) ∧ blobTarget (blobWith 1 (blobTag 1)) ≠ 0) ∧
    (dev .ready).glb.state ≠ .cold :=
  ⟨accepts_sessionless _ _ _ (by decide) rfl, accepts_sessionless _ _ _ (by decide) rfl, ⟨accepts_hosted _ _ _ (by decide +kernel), by decide⟩,
   ⟨accepts_hosted _ _ _ (by decide +kernel), by decide, rfl, rfl, rfl⟩, ⟨accepts_hosted _ _ _ (by decide), rfl, rfl⟩, rfl, ⟨rfl, rfl, blob_fails⟩,
   ⟨rfl, rfl, Option.isSome_iff_exists.mp blob_unwraps, by decide⟩, by decide⟩

/-- A key request waits on I/O die 1. -/
def deriving1 : State := { (dev .ready) with cip := [(1, { Cip.reset with kdf := [.fuelleTx 7 0] })] }

theorem witness_AlarmsAndTests :
    (wellFormed (.minorAlarm 1) = true ∧ wellFormed (.minorAlarm 3) = true ∧ (dev .ready).glb.state ≠ .cold ∧ (dev .ready).fw.dead = false) ∧
    ((deriving1.cipher 1).kdf = [.fuelleTx 7 0] ∧ (deriving1.cipher 1).kdfOut = [] ∧ deriving1.inReset 6 = false) ∧
    ((dev .ready).glb.state ≠ .cold ∧ ((dev .ready).cipher 1).cores.getLsbD 3 = true) := by
  decide

/-- A port UP towards a neighbour with a serial number. -/
def nbr0 : Ident :=
  { port := 3, dir := 0, idx := 0, serial := 9, gen := 1, part := 1, manifest := [], proto := 2, codec := [], features := 0, planfeat := 0, bpos := 0
    reset := false, raw := List.replicate 128 0 }
def linked (d : DevState) : State :=
  { State.reset with glb := { Glb.reset with state := d }, link := [(47, { Link.reset 47 with state := 4, nbr := some nbr0 })] }
def linkedReady : State := { linked .ready with run := { Run.reset with plan := some plan0 } }

/-- REFILL towards serial number 9, as source (0) or target (1). -/
def refillArgs (role : Byte) : List Byte := [role, 0, 0, 0] ++ beBytes 16 9 ++ List.replicate 4 0
def buddyArgs : List Byte := beBytes 16 9 ++ beBytes 16 8 ++ List.replicate 8 0

theorem witness_SparesCommandsComplete :
    Accepts { plainCmd 0xA1 inIR 0 buddyOk with len := fun n => decide (40 ≤ n ∧ n ≤ 40 + 24 * 64 ∧ (n - 40) % 24 = 0) }
      (envFor (dev .ready) 0xA1 buddyArgs) buddyArgs (dev .ready) ∧
    (Accepts (refillCmd (refillArgs 0)) (envFor (hosted linkedReady) 0xA2 (refillArgs 0)) (refillArgs 0) (hosted linkedReady) ∧
      (hosted linkedReady).long.refill = none ∧ portsTo (hosted linkedReady) (BitVec.ofNat 128 (be (refillArgs 0) 4 16)) ≠ [] ∧
      be (refillArgs 0) 0 1 = 0 ∧ (hosted linkedReady).run.plan.isSome = true ∧ reflectionStale (hosted linkedReady) = false) ∧
    (Accepts (refillCmd (refillArgs 1)) (envFor (hosted (linked .isolated)) 0xA2 (refillArgs 1)) (refillArgs 1) (hosted (linked .isolated)) ∧
      portsTo (hosted (linked .isolated)) (BitVec.ofNat 128 (be (refillArgs 1) 4 16)) ≠ [] ∧ be (refillArgs 1) 0 1 = 1) ∧
    ({ (dev .isolated) with long := { Long.reset with refill := some (1, env0, 9) } } : State).long.refill = some (1, env0, 9) ∧
    (Accepts (plainCmd 0xA3 inR 32 fun _ => true) (envFor (dev .ready) 0xA3 (beBytes 16 9 ++ beBytes 16 8)) (beBytes 16 9 ++ beBytes 16 8) (dev .ready) ∧
      be (beBytes 16 9 ++ beBytes 16 8) 0 16 ≠ 0) :=
  ⟨accepts_hosted _ _ _ (by decide), ⟨accepts_hosted _ _ _ (by decide), rfl, by decide +kernel, by decide, rfl, by decide +kernel⟩,
   ⟨accepts_hosted _ _ _ (by decide), by decide +kernel, by decide⟩, rfl, accepts_hosted _ _ _ (by decide), by decide⟩

/-- Port 47 in a state, for a reason. -/
def portIn (st reason : Nat) : State :=
  { State.reset with glb := { Glb.reset with state := .ready }, link := [(47, { Link.reset 47 with state := st, reason := reason })] }
def port47 : List Byte := [0, 0, 0x80, 0, 0, 0, 0, 0]

/-- A plan with one ingest stream. -/
def stream0 : StreamEntry :=
  { context := 5, lport := 7000, sport := 6000, kind := 0, saddr := 0xFFFF0A000004, object := 1, rbytes := 64, per := 1, ring := 0x1000, rslots := 2
    noteCore := 0, noteTok := 0, orecs := 4, cookie := 5 }
def ingesting : State :=
  { State.reset with glb := { Glb.reset with state := .ready }, run := { Run.reset with plan := some { plan0 with streams := [stream0] } } }

theorem witness_LinkAndIngestCommandsComplete :
    (Accepts (plainCmd 0xB0 inIRUQ 8 fun p => decide (be p 0 2 = 0)) (envFor (hosted (portIn 4 0)) 0xB0 port47) port47 (hosted (portIn 4 0)) ∧
      bit (be port47 0 8) 47 = true ∧ ((hosted (portIn 4 0)).port 47).state ≠ 0) ∧
    (Accepts (plainCmd 0xB0 inIRUQ 8 fun p => decide (be p 0 2 = 0)) (envFor (hosted (portIn 5 3)) 0xB0 port47) port47 (hosted (portIn 5 3)) ∧
      ((hosted (portIn 5 3)).port 47).state = 5 ∧ ((hosted (portIn 5 3)).port 47).reason = 3) ∧
    (Accepts (plainCmd 0xB1 inIRUQ 8 fun p => decide (be p 0 2 = 0)) (envFor (hosted (portIn 6 0)) 0xB1 port47) port47 (hosted (portIn 6 0)) ∧
      ((hosted (portIn 6 0)).port 47).state = 6) ∧
    (Accepts (plainCmd 0xB1 inIRUQ 8 fun p => decide (be p 0 2 = 0)) (envFor (hosted (portIn 0 4)) 0xB1 port47) port47 (hosted (portIn 0 4)) ∧
      (∀ n < 48, bit (be port47 0 8) n = true → ((hosted (portIn 0 4)).port n).state ≠ 6) ∧ ((hosted (portIn 0 4)).port 47).reason = 4) ∧
    (Accepts (plainCmd 0xB2 inIRUQN 8 fun p => decide (be p 0 1 < 48) && resv0 p 1 7) (envFor (hosted (linked .ready)) 0xB2 [47, 0, 0, 0, 0, 0, 0, 0])
        [47, 0, 0, 0, 0, 0, 0, 0] (hosted (linked .ready)) ∧ ((hosted (linked .ready)).port (be [47, 0, 0, 0, 0, 0, 0, 0] 0 1)).nbr = some nbr0) ∧
    (Accepts (plainCmd 0xC0 inIRUQ 8 fun p => resv0 p 2 6) (envFor (hosted ingesting) 0xC0 (List.replicate 8 0)) (List.replicate 8 0) (hosted ingesting) ∧
      hasStream (hosted ingesting) (List.replicate 8 0) = true) ∧
    (Accepts (plainCmd 0xC1 inR 16 fun p => resv0 p 2 6) (envFor (hosted ingesting) 0xC1 (List.replicate 16 0)) (List.replicate 16 0) (hosted ingesting) ∧
      hasStream (hosted ingesting) (List.replicate 16 0) = true) ∧
    (Accepts (plainCmd 0xC2 inIR 32 fun p => decide (be p 0 2 < 2048) && resv0 p 20 4) (envFor (dev .isolated) 0xC2 ([7, 0xFF] ++ List.replicate 30 0))
        ([7, 0xFF] ++ List.replicate 30 0) (dev .isolated) ∧ (dev .isolated).run.plan = none) ∧
    (Accepts (plainCmd 0xC2 inIR 32 fun p => decide (be p 0 2 < 2048) && resv0 p 20 4) (envFor (hosted ingesting) 0xC2 (List.replicate 32 0))
        (List.replicate 32 0) (hosted ingesting) ∧ hasStream (hosted ingesting) (List.replicate 32 0) = true) :=
  ⟨⟨accepts_hosted _ _ _ (by decide), by decide, by decide⟩, ⟨accepts_hosted _ _ _ (by decide), by decide⟩, ⟨accepts_hosted _ _ _ (by decide), by decide⟩,
   ⟨accepts_hosted _ _ _ (by decide), by decide, by decide⟩, ⟨accepts_hosted _ _ _ (by decide), by decide⟩, ⟨accepts_hosted _ _ _ (by decide), by decide⟩,
   ⟨accepts_hosted _ _ _ (by decide), by decide⟩, ⟨accepts_hosted _ _ _ (by decide), rfl⟩, ⟨accepts_hosted _ _ _ (by decide), by decide⟩⟩


/-! ### Witnesses: core ops -/

/-- A bundle whose one enabled slot carries an opcode, predicated on. -/
def bunOf (slot op : Nat) : Bun :=
  { raw := BitVec.ofNat 1024 (1 + 2 ^ (16 + slot) + op * 2 ^ slotBase slot), rep := 0, slotsDone := [], preds := 255, mask0 := BitVec.allOnes 512
    mask1 := BitVec.allOnes 512, spoiled := false, loop := none, branch := none, final := false, fence := false, drained := [], arrived := [], records := [] }

/-- Core 479 in a RUNNING step with that bundle in progress. -/
def acting (slot op : Nat) : State :=
  { running with cores := [(479, { Core.reset with active := true, bun := some (bunOf slot op) })] }

/-- The slot acts: what the kernel sees of it. -/
def actsNow (slot op : Nat) : Bool := decide (slot ∈ slotsOf (bunOf slot op)) && decide (opOf (slotWord (bunOf slot op).raw slot) = op)

theorem slot_acts (slot op : Nat) (h : actsNow slot op = true) : SlotActs (acting slot op) 479 slot op (acting slot op) (bunOf slot op) := by
  simp only [actsNow, Bool.and_eq_true, decide_eq_true_eq] at h
  have hb : brickRuns (acting slot op) (479 / 48) = true := (by decide : brickRuns running 9 = true)
  have hr : (acting slot op).inReset 1 = false := (by decide : running.inReset 1 = false)
  have ha : ((acting slot op).core 479).active = true := rfl
  have hs : (acting slot op).glb.state = .running := rfl
  have hc : coreRuns (acting slot op) 479 = true := by
    unfold coreRuns
    rw [hb, hr, ha, hs]
    rfl
  have hi : issue (acting slot op) 479 = .ready (acting slot op) := by
    unfold issue
    rw [hc]
    rfl
  exact ⟨by decide, hi, rfl, ⟨h.1, List.not_mem_nil⟩, h.2⟩

/-- A core at a bundle of its own stream: the bytes of the stream at PC 0. -/
def atBundle (bytes : List (Nat × Byte)) (t : Tab Nat) : State :=
  { running with mem := bytes.map fun x => (cacheAddr 7 0 + x.1, x.2)
                 cores := [(7, { Core.reset with active := true, rf := { Core.reset.rf with t := t, p := [(0, BitVec.allOnes 512)] } })] }

/-- A bundle that issues now. -/
def issuesNow (s : State) (c : Nat) : Bool :=
  let x := s.core c
  let raw := fetch s c
  coreRuns s c && x.bun.isNone && s.glb.state != .quiesced && !mustWait x raw && (readP x c (bpredOf raw)).getLsbD 0 && bundleValid x raw &&
    !loopTooDeep x c raw && !kickHeld s c raw

theorem issue_ready (s : State) (c : Nat) (h : issuesNow s c = true) : issue s c = .ready (beginBundle s c (fetch s c)) := by
  simp only [issuesNow, Bool.and_eq_true, Bool.not_eq_true', bne_iff_ne, ne_eq, Option.isNone_iff_eq_none] at h
  obtain ⟨⟨⟨⟨⟨⟨⟨h1, h2⟩, h3⟩, h4⟩, h5⟩, h6⟩, h7⟩, h8⟩ := h
  simp [issue, tryIssue, h1, h2, h3, h4, h5, h6, h7, h8]

/-- Core 7 at a bundle whose slot 7 carries END. -/
def atEnd : State := atBundle [(0, 1), (2, 0x80), (116, 1)] []
def endBun : Bun := (((beginBundle atEnd 7 (fetch atEnd 7)).core 7).bun).getD (bunOf 0 0)

theorem bundle_issues : SlotActs atEnd 7 7 1 (beginBundle atEnd 7 (fetch atEnd 7)) endBun ∧ predicated endBun 7 :=
  ⟨⟨by decide, issue_ready _ _ (by decide +kernel), by decide +kernel, by decide +kernel, by decide +kernel⟩,
   (by decide +kernel : endBun.preds.testBit 7 = true)⟩

theorem witness_VectorOpsComplete : ∀ ve ∈ [0, 1], ∀ op ∈ [0x01, 0x02, 0x03, 0x04, 0x05, 0x06, 0x07, 0x08, 0x09, 0x0A, 0x0B, 0x0C, 0x0D, 0x0E, 0x0F, 0x10, 0x11, 0x12, 0x13, 0x14,
    0x15, 0x16, 0x17, 0x18, 0x19, 0x1A, 0x1B, 0x1C, 0x20, 0x21, 0x22, 0x23, 0x24, 0x25, 0x26, 0x27, 0x28, 0x29, 0x2A, 0x2B,
    0x30, 0x31, 0x32, 0x40, 0x41, 0x42, 0x43, 0x44, 0x45, 0x46, 0x50, 0x51, 0x52, 0x53, 0x60, 0x61, 0x62, 0x63, 0x70, 0x71,
    0x72, 0x73, 0x74, 0x75, 0x76, 0x77],
    SlotActs (acting (4 + ve) op) 479 (4 + ve) op (acting (4 + ve) op) (bunOf (4 + ve) op) ∧ predicated (bunOf (4 + ve) op) (4 + ve) := by
  intro ve hv op ho
  refine ⟨slot_acts _ _ ?_, ?_⟩
  · exact (by decide +kernel : ∀ ve ∈ [0, 1], ∀ op ∈ [0x01, 0x02, 0x03, 0x04, 0x05, 0x06, 0x07, 0x08, 0x09, 0x0A, 0x0B, 0x0C, 0x0D, 0x0E, 0x0F, 0x10, 0x11, 0x12, 0x13, 0x14,
    0x15, 0x16, 0x17, 0x18, 0x19, 0x1A, 0x1B, 0x1C, 0x20, 0x21, 0x22, 0x23, 0x24, 0x25, 0x26, 0x27, 0x28, 0x29, 0x2A, 0x2B,
    0x30, 0x31, 0x32, 0x40, 0x41, 0x42, 0x43, 0x44, 0x45, 0x46, 0x50, 0x51, 0x52, 0x53, 0x60, 0x61, 0x62, 0x63, 0x70, 0x71,
    0x72, 0x73, 0x74, 0x75, 0x76, 0x77], actsNow (4 + ve) op = true) ve hv op ho
  · exact (by decide +kernel : ∀ ve ∈ [0, 1], (255 : Nat).testBit (4 + ve) = true) ve hv

theorem witness_MatrixOpsComplete : ∀ a ∈ [0, 1, 2, 3], ∀ op ∈ [0x01, 0x10, 0x11, 0x12, 0x13, 0x14, 0x15, 0x16, 0x20, 0x21],
    SlotActs (acting a op) 479 a op (acting a op) (bunOf a op) ∧ predicated (bunOf a op) a := by
  intro a ha op ho
  exact ⟨slot_acts _ _ ((by decide +kernel : ∀ a ∈ [0, 1, 2, 3], ∀ op ∈ [0x01, 0x10, 0x11, 0x12, 0x13, 0x14, 0x15, 0x16, 0x20, 0x21], actsNow a op = true) a ha op ho),
    (by decide +kernel : ∀ a ∈ [0, 1, 2, 3], (255 : Nat).testBit a = true) a ha⟩

theorem witness_LoadOpsComplete : ∀ op ∈ [1, 2, 3, 4, 5, 6, 7, 8],
    SlotActs (acting 6 op) 479 6 op (acting 6 op) (bunOf 6 op) ∧ predicated (bunOf 6 op) 6 := by
  intro op ho
  exact ⟨slot_acts _ _ ((by decide +kernel : ∀ op ∈ [1, 2, 3, 4, 5, 6, 7, 8], actsNow 6 op = true) op ho),
    (by decide +kernel : (255 : Nat).testBit 6 = true)⟩

theorem witness_ScalarOpsComplete : ∀ op ∈ [0x08, 0x09, 0x0A, 0x0B, 0x0C, 0x0D, 0x0E, 0x0F, 0x10, 0x11, 0x12, 0x13, 0x18, 0x19, 0x1A, 0x22, 0x31, 0x3A],
    SlotActs (acting 7 op) 479 7 op (acting 7 op) (bunOf 7 op) ∧ predicated (bunOf 7 op) 7 := by
  intro op ho
  exact ⟨slot_acts _ _ ((by decide +kernel : ∀ op ∈ [0x08, 0x09, 0x0A, 0x0B, 0x0C, 0x0D, 0x0E, 0x0F, 0x10, 0x11, 0x12, 0x13, 0x18, 0x19, 0x1A, 0x22, 0x31, 0x3A], actsNow 7 op = true) op ho),
    (by decide +kernel : (255 : Nat).testBit 7 = true)⟩

theorem witness_ControlOpsComplete : ∀ op ∈ [0x01, 0x02, 0x03, 0x20, 0x21, 0x28, 0x29, 0x30, 0x32, 0x38, 0x39],
    SlotActs (acting 7 op) 479 7 op (acting 7 op) (bunOf 7 op) ∧ predicated (bunOf 7 op) 7 := by
  intro op ho
  exact ⟨slot_acts _ _ ((by decide +kernel : ∀ op ∈ [0x01, 0x02, 0x03, 0x20, 0x21, 0x28, 0x29, 0x30, 0x32, 0x38, 0x39], actsNow 7 op = true) op ho),
    (by decide +kernel : (255 : Nat).testBit 7 = true)⟩

/-- INIT of MIN: XOP 1. -/
def initWord : Nat := 0x21 + 2 ^ 78

theorem witness_InitSetsIdentities :
    loadPart (acting 3 0x21) 479 3 initWord (bunOf 3 0x21) = acting 3 0x21 ∧
    (∀ k, ((acting 3 0x21).core 479).bun = some k → k.spoiled = false) ∧ bits initWord 80 78 = 1 ∧ bits (0x21 + 2 ^ 79) 80 78 = 2 := by
  refine ⟨if_pos (by decide), ?_, by decide, by decide⟩
  intro k hk
  have e : ((acting 3 0x21).core 479).bun = some (bunOf 3 0x21) := rfl
  rw [e] at hk
  exact (congrArg Bun.spoiled (Option.some.inj hk)).symm

/-! ### Witnesses: tokens and cluster engines -/

/-- A core that has waited since tick 0, at a tick. -/
def waitingCore : State :=
  { running with pwr := { Pwr.reset with tick := 20000000 }, cores := [(7, { Core.reset with active := true, waiting := some 0 })] }

/-- A record for slot 130 of chain 5, device 6, which the map of cluster 39 sends to its core 11, token 63. -/
def record0 : List Byte := leBytes 8 (5 + 6 * 2 ^ 16 + 2 * 2 ^ 24 + 2 * 2 ^ 30) ++ List.replicate 56 0
def chained : State :=
  { running with clusters := [(39, { Cluster.reset with recvMap := [BitVec.ofNat 64 (5 + 6 * 2 ^ 16 + 11 * 2 ^ 24 + 63 * 2 ^ 28)] })] }

/-- Address word of an offset of the cluster's memory. -/
def cw (off : Nat) : Nat := 2 ^ 62 + off

/-- A descriptor: opcode, LAST, and fields of the body by their first byte. -/
def desc (op : Nat) (fields : List (Nat × Nat)) : Nat := op + 2 ^ 8 + (fields.map fun f => f.2 * 2 ^ (8 * f.1)).sum

/-- Cluster 0 in a RUNNING step with a descriptor at offset 0, at the head of an engine. -/
def planRouted : Plan :=
  { plan0 with routes := List.replicate 7 [{ egress := 0, isLocal := true, valid := true, next := 0 }] }
def engineAt (eng d : Nat) : State :=
  { running with
    run := { running.run with plan := some planRouted }
    mem := ((List.range 64).map fun i => (clusterAddr 0 i, BitVec.ofNat 8 (d >>> (8 * i)))).filter fun x => x.2 != 0
    clusters := [(0, { Cluster.reset with engines := [(eng, { Engine.reset with lists := [0] })] })] }

/-- The descriptor starts: what the kernel sees of it. -/
def startsNow (eng op d : Nat) : Bool :=
  let s := engineAt eng d
  engineRuns s 0 eng && headDesc s 0 eng == some 0 && (s.engine 0 eng).desc == 0 && descAt s 0 0 == d && waitMet s 0 eng d && headerValid eng d && dOp d == op

theorem desc_starts (eng op d : Nat) (h : startsNow eng op d = true) : DescriptorStarts (engineAt eng d) 0 eng op 0 d := by
  simp only [startsNow, Bool.and_eq_true, beq_iff_eq] at h
  obtain ⟨⟨⟨⟨⟨⟨h1, h2⟩, h0⟩, h3⟩, h4⟩, h5⟩, h6⟩ := h
  exact ⟨h1, h2, h0, by decide, h3, h4, h5, h6⟩

def isNext (x : Except Stop (List (List Act))) : Bool := match x with | .ok _ => true | .error _ => false
theorem next_of (x : Except Stop (List (List Act))) (h : isNext x = true) : ∃ t, x = .ok t := by
  cases x with
  | ok t => exact ⟨t, rfl⟩
  | error c => cases h

theorem witness_TokenEventsComplete :
    (coreRuns (atBundle [(0, 1), (3, 5), (4, 2)] [(5, 2)]) 7 = true ∧ mustWait ((atBundle [(0, 1), (3, 5), (4, 2)] [(5, 2)]).core 7) (fetch (atBundle [(0, 1), (3, 5), (4, 2)] [(5, 2)]) 7) = true ∧
      waitCount (fetch (atBundle [(0, 1), (3, 5), (4, 2)] [(5, 2)]) 7) ≤ readT ((atBundle [(0, 1), (3, 5), (4, 2)] [(5, 2)]).core 7) (waitToken (fetch (atBundle [(0, 1), (3, 5), (4, 2)] [(5, 2)]) 7))) ∧
    (readT ((atBundle [(0, 1), (3, 5), (4, 2)] [(5, 1)]).core 7) (waitToken (fetch (atBundle [(0, 1), (3, 5), (4, 2)] [(5, 1)]) 7)) < waitCount (fetch (atBundle [(0, 1), (3, 5), (4, 2)] [(5, 1)]) 7) ∧
      ((atBundle [(0, 1), (3, 5), (4, 2)] [(5, 1)]).core 7).waiting = none) ∧
    (running.inReset 1 = false ∧ readT (running.core 479) 63 < 65535) ∧
    (coreRuns waitingCore 7 = true ∧ (waitingCore.core 7).waiting = some 0 ∧ (waitingCore.core 7).waitLimit ≠ 0 ∧
      (waitingCore.core 7).waitLimit < waitClock waitingCore - 0) ∧
    (((chained.cluster 39).recvMap.find? fun m =>
        bits m.toNat 15 0 == bits (leNat (record0.take 8)) 15 0 && bits m.toNat 23 16 == bits (leNat (record0.take 8)) 23 16) =
          some (BitVec.ofNat 64 (5 + 6 * 2 ^ 16 + 11 * 2 ^ 24 + 63 * 2 ^ 28)) ∧
      bits (BitVec.ofNat 64 (5 + 6 * 2 ^ 16 + 11 * 2 ^ 24 + 63 * 2 ^ 28)).toNat 27 24 < 12 ∧ chained.inReset 1 = false) ∧
    (tget 0 (running.engine 39 9).tokens 7 < 65535) := by
  decide +kernel

theorem witness_TokenEventsComplete_slotNop : ∀ slot ∈ [0, 1, 2, 3, 4, 5, 6, 7], SlotActs (acting slot 0) 479 slot 0 (acting slot 0) (bunOf slot 0) := by
  intro slot hs
  exact slot_acts _ _ ((by decide +kernel : ∀ slot ∈ [0, 1, 2, 3, 4, 5, 6, 7], actsNow slot 0 = true) slot hs)

/-- Engine 9 of cluster 39 has waited since tick 0. -/
def waitingEngine : State :=
  { waitingCore with clusters := [(39, { Cluster.reset with engines := [(9, { Engine.reset with lists := [64], waiting := some 0 })] })] }

theorem witness_TokenEventsComplete_engine :
    engineRuns waitingEngine 39 9 = true ∧ headDesc waitingEngine 39 9 = some 64 ∧ (waitingEngine.engine 39 9).waiting = some 0 ∧
    (waitingEngine.core (12 * 39)).waitLimit ≠ 0 ∧ (waitingEngine.core (12 * 39)).waitLimit < waitClock waitingEngine - 0 := by
  decide +kernel

def desc_dmaCopy : Nat := desc 1 [(8, cw 0x1000), (16, cw 0x2000), (24, 4), (28, 1)]
def desc_dmaSkew : Nat := desc 2 [(8, cw 0x1000), (16, cw 0x2000), (28, 1), (41, 1), (44, 1)]
def desc_dmaFill : Nat := desc 3 [(16, cw 0x2000), (24, 4), (28, 1), (48, 0x01020304)]
def desc_engGather : Nat := desc 1 [(8, cw 0x1000), (16, cw 0x2000), (24, cw 0x3000), (32, 1), (36, 4), (40, 1), (44, 4)]
def desc_engScatter : Nat := desc 2 [(8, cw 0x1000), (16, cw 0x2000), (24, cw 0x3000), (32, 1), (36, 4), (40, 1), (44, 4)]
def desc_engScatterAdd : Nat := desc 3 [(8, cw 0x1000), (16, cw 0x2000), (24, cw 0x3000), (32, 1), (36, 4), (40, 1), (44, 4)]
def desc_engTranspose : Nat := desc 1 [(8, cw 0x1000), (16, cw 0x2000), (24, 1), (28, 1), (40, 3)]
def desc_engLookup : Nat := desc 1 [(8, cw 0x1000), (16, cw 0x2000), (24, cw 0x3000), (32, cw 0x4000), (48, 1), (52, 1), (56, 1)]
def desc_engSort : Nat := desc 1 [(8, cw 0x1000), (16, cw 0x2000), (24, cw 0x3000), (32, cw 0x4000), (40, 1), (44, 1)]
def desc_engTopk : Nat := desc 2 [(8, cw 0x1000), (16, cw 0x2000), (24, cw 0x3000), (32, cw 0x4000), (40, 1), (44, 1), (48, 1)]
def desc_engSetslot : Nat := desc 1 [(8, 3), (12, 7)]
def desc_engGen : Nat := desc 2 [(8, 3), (16, cw 0x2000), (24, 1)]
def desc_engEncode : Nat := desc 1 [(8, cw 0x1000), (16, cw 0x2000), (24, cw 0x3000), (32, 1)]
def desc_engDecode : Nat := desc 2 [(8, cw 0x1000), (16, cw 0x20000), (24, cw 0x3000), (32, 1)]
def desc_engSend : Nat := desc 1 [(12, 1), (16, cw 0x1000), (32, 0x100)]
def desc_engRecvSum : Nat := desc 2 [(12, 1), (16, cw 0x1000), (24, cw 0x2000), (32, cw 0x3000), (44, 0x3F800000)]
def desc_engRecvMax : Nat := desc 3 [(12, 1), (16, cw 0x1000), (24, cw 0x2000), (32, cw 0x3000), (44, 0x3F800000)]
def desc_engRecvMin : Nat := desc 4 [(12, 1), (16, cw 0x1000), (24, cw 0x2000), (32, cw 0x3000), (44, 0x3F800000)]
def desc_engRecvCopy : Nat := desc 5 [(12, 1), (16, cw 0x1000), (24, cw 0x2000), (32, cw 0x3000), (44, 0x3F800000)]
def desc_engMapSend : Nat := desc 1 [(8, cw 0x1000), (16, 1)]
def desc_engMapRecv : Nat := desc 2 [(8, cw 0x1000), (16, 1)]

def stopsWith (x : Except Stop (List (List Act))) (e : Stop) : Bool := match x with | .ok _ => false | .error f => f == e
theorem stop_of (x : Except Stop (List (List Act))) (e : Stop) (h : stopsWith x e = true) : x = .error e := by
  cases x with
  | ok t => cases h
  | error f => rw [eq_of_beq h]

theorem witness_EngineOpsComplete :
    (DescriptorStarts (engineAt 0 desc_dmaCopy) 0 0 1 0 desc_dmaCopy ∧ ∃ t, copyEffect 0 0 (engineAt 0 desc_dmaCopy) desc_dmaCopy = .ok t) ∧
    (DescriptorStarts (engineAt 1 desc_dmaSkew) 0 1 2 0 desc_dmaSkew ∧ ∃ t, skewEffect 0 1 (engineAt 1 desc_dmaSkew) desc_dmaSkew = .ok t) ∧
    (DescriptorStarts (engineAt 1 desc_dmaFill) 0 1 3 0 desc_dmaFill ∧ ∃ t, fillEffect 0 (engineAt 1 desc_dmaFill) desc_dmaFill = .ok t) ∧
    (DescriptorStarts (engineAt 2 desc_engGather) 0 2 1 0 desc_engGather ∧ ∃ t, gatherEffect 1 0 (engineAt 2 desc_engGather) desc_engGather = .ok t) ∧
    (DescriptorStarts (engineAt 2 desc_engScatter) 0 2 2 0 desc_engScatter ∧ ∃ t, gatherEffect 2 0 (engineAt 2 desc_engScatter) desc_engScatter = .ok t) ∧
    (DescriptorStarts (engineAt 2 desc_engScatterAdd) 0 2 3 0 desc_engScatterAdd ∧ ∃ t, gatherEffect 3 0 (engineAt 2 desc_engScatterAdd) desc_engScatterAdd = .ok t) ∧
    (DescriptorStarts (engineAt 3 desc_engTranspose) 0 3 1 0 desc_engTranspose ∧ ∃ t, transposeEffect 0 (engineAt 3 desc_engTranspose) desc_engTranspose = .ok t) ∧
    (DescriptorStarts (engineAt 4 desc_engLookup) 0 4 1 0 desc_engLookup ∧ ∃ t, lookupEffect 0 (engineAt 4 desc_engLookup) desc_engLookup = .ok t) ∧
    (DescriptorStarts (engineAt 5 desc_engSort) 0 5 1 0 desc_engSort ∧ ∃ t, sortEffect 1 0 (engineAt 5 desc_engSort) desc_engSort = .ok t) ∧
    (DescriptorStarts (engineAt 5 desc_engTopk) 0 5 2 0 desc_engTopk ∧ ∃ t, sortEffect 2 0 (engineAt 5 desc_engTopk) desc_engTopk = .ok t) ∧
    (DescriptorStarts (engineAt 6 desc_engSetslot) 0 6 1 0 desc_engSetslot ∧ ∃ t, setslotEffect (engineAt 6 desc_engSetslot) desc_engSetslot = .ok t) ∧
    (DescriptorStarts (engineAt 6 desc_engGen) 0 6 2 0 desc_engGen ∧ ∃ t, genEffect 0 (engineAt 6 desc_engGen) desc_engGen = .ok t) ∧
    (DescriptorStarts (engineAt 7 desc_engEncode) 0 7 1 0 desc_engEncode ∧ ∃ t, encodeEffect 0 (engineAt 7 desc_engEncode) desc_engEncode = .ok t) ∧
    (DescriptorStarts (engineAt 7 desc_engDecode) 0 7 2 0 desc_engDecode ∧ ∃ t, decodeEffect 0 (engineAt 7 desc_engDecode) desc_engDecode = .ok t) ∧
    (DescriptorStarts (engineAt 8 desc_engSend) 0 8 1 0 desc_engSend ∧ ∃ t, sendEffect 0 (engineAt 8 desc_engSend) desc_engSend = .ok t) ∧
    (DescriptorStarts (engineAt 8 desc_engRecvSum) 0 8 2 0 desc_engRecvSum ∧ ∃ t, recvEffect 2 0 (engineAt 8 desc_engRecvSum) desc_engRecvSum = .ok t) ∧
    (DescriptorStarts (engineAt 8 desc_engRecvMax) 0 8 3 0 desc_engRecvMax ∧ ∃ t, recvEffect 3 0 (engineAt 8 desc_engRecvMax) desc_engRecvMax = .ok t) ∧
    (DescriptorStarts (engineAt 8 desc_engRecvMin) 0 8 4 0 desc_engRecvMin ∧ ∃ t, recvEffect 4 0 (engineAt 8 desc_engRecvMin) desc_engRecvMin = .ok t) ∧
    (DescriptorStarts (engineAt 8 desc_engRecvCopy) 0 8 5 0 desc_engRecvCopy ∧ ∃ t, recvEffect 5 0 (engineAt 8 desc_engRecvCopy) desc_engRecvCopy = .ok t) ∧
    (DescriptorStarts (engineAt 9 desc_engMapSend) 0 9 1 0 desc_engMapSend ∧ ∃ t, mapEffect 1 0 (engineAt 9 desc_engMapSend) desc_engMapSend = .ok t) ∧
    (DescriptorStarts (engineAt 9 desc_engMapRecv) 0 9 2 0 desc_engMapRecv ∧ ∃ t, mapEffect 2 0 (engineAt 9 desc_engMapRecv) desc_engMapRecv = .ok t) ∧
    (DescriptorStarts (engineAt 0 (desc 1 [])) 0 0 1 0 (desc 1 []) ∧ copyEffect 0 0 (engineAt 0 (desc 1 [])) (desc 1 []) = .error (.fault 1)) :=
  ⟨⟨desc_starts _ _ _ (by decide +kernel), next_of _ (by decide +kernel)⟩,
   ⟨desc_starts _ _ _ (by decide +kernel), next_of _ (by decide +kernel)⟩,
   ⟨desc_starts _ _ _ (by decide +kernel), next_of _ (by decide +kernel)⟩,
   ⟨desc_starts _ _ _ (by decide +kernel), next_of _ (by decide +kernel)⟩,
   ⟨desc_starts _ _ _ (by decide +kernel), next_of _ (by decide +kernel)⟩,
   ⟨desc_starts _ _ _ (by decide +kernel), next_of _ (by decide +kernel)⟩,
   ⟨desc_starts _ _ _ (by decide +kernel), next_of _ (by decide +kernel)⟩,
   ⟨desc_starts _ _ _ (by decide +kernel), next_of _ (by decide +kernel)⟩,
   ⟨desc_starts _ _ _ (by decide +kernel), next_of _ (by decide +kernel)⟩,
   ⟨desc_starts _ _ _ (by decide +kernel), next_of _ (by decide +kernel)⟩,
   ⟨desc_starts _ _ _ (by decide +kernel), next_of _ (by decide +kernel)⟩,
   ⟨desc_starts _ _ _ (by decide +kernel), next_of _ (by decide +kernel)⟩,
   ⟨desc_starts _ _ _ (by decide +kernel), next_of _ (by decide +kernel)⟩,
   ⟨desc_starts _ _ _ (by decide +kernel), next_of _ (by decide +kernel)⟩,
   ⟨desc_starts _ _ _ (by decide +kernel), next_of _ (by decide +kernel)⟩,
   ⟨desc_starts _ _ _ (by decide +kernel), next_of _ (by decide +kernel)⟩,
   ⟨desc_starts _ _ _ (by decide +kernel), next_of _ (by decide +kernel)⟩,
   ⟨desc_starts _ _ _ (by decide +kernel), next_of _ (by decide +kernel)⟩,
   ⟨desc_starts _ _ _ (by decide +kernel), next_of _ (by decide +kernel)⟩,
   ⟨desc_starts _ _ _ (by decide +kernel), next_of _ (by decide +kernel)⟩,
   ⟨desc_starts _ _ _ (by decide +kernel), next_of _ (by decide +kernel)⟩,
   ⟨desc_starts _ _ _ (by decide +kernel), stop_of _ _ (by decide +kernel)⟩⟩

/-- The same with board-shared addressing on, this device at position 0 and another at position 1. -/
def engineShared (eng d : Nat) : State := { engineAt eng d with lnk := { (engineAt eng d).lnk with shared := true, bmask := 3 } }
/-- The same with stack 0 held. -/
def engineHeld (eng d : Nat) : State := { engineAt eng d with pwr := { (engineAt eng d).pwr with holdStk := 1 } }
/-- The same with the descriptor in progress, its work settled or not. -/
def engineInside (work : Option (List (List Act))) : State :=
  (engineAt 9 desc_engMapSend).modEngine 0 9 fun x => { x with desc := desc_engMapSend, work := work }

/-- Maps out of the fast tier of stack 0, of this device and of position 1. -/
def desc_farMap : Nat := desc 1 [(8, 2 ^ 56 + 0x1000), (16, 1)]
def desc_fastMap : Nat := desc 1 [(8, 0x1000), (16, 1)]

theorem started_of (t : State) (eng op d : Nat) (h : (engineRuns t 0 eng && headDesc t 0 eng == some 0 &&
    (t.engine 0 eng).desc == 0 && descAt t 0 0 == d && waitMet t 0 eng d && headerValid eng d && dOp d == op) = true) :
    DescriptorStarts t 0 eng op 0 d := by
  simp only [Bool.and_eq_true, beq_iff_eq] at h
  obtain ⟨⟨⟨⟨⟨⟨h1, h2⟩, h0⟩, h3⟩, h4⟩, h5⟩, h6⟩ := h
  exact ⟨h1, h2, h0, by decide, h3, h4, h5, h6⟩

theorem witness_EngineOpsComplete_stops :
    (DescriptorStarts (engineShared 9 desc_farMap) 0 9 1 0 desc_farMap ∧
      mapEffect 1 0 (engineShared 9 desc_farMap) desc_farMap = .error (.ask 1 0x1000 8 0x1000)) ∧
    (DescriptorStarts (engineHeld 9 desc_fastMap) 0 9 1 0 desc_fastMap ∧ mapEffect 1 0 (engineHeld 9 desc_fastMap) desc_fastMap = .error .hold) ∧
    (engineRuns (engineInside none) 0 9 = true ∧ headDesc (engineInside none) 0 9 = some 0 ∧ ((engineInside none).engine 0 9).desc ≠ 0 ∧
      dOp ((engineInside none).engine 0 9).desc = 1 ∧ ((engineInside none).engine 0 9).work = none ∧ ((engineInside none).engine 0 9).owed = []) ∧
    (engineRuns (engineInside (some [])) 0 9 = true ∧ headDesc (engineInside (some [])) 0 9 = some 0 ∧
      dOp ((engineInside (some [])).engine 0 9).desc = 1 ∧ ((engineInside (some [])).engine 0 9).work ≠ none) :=
  ⟨⟨started_of _ _ _ _ (by decide +kernel), stop_of _ _ (by decide +kernel)⟩, ⟨started_of _ _ _ _ (by decide +kernel), stop_of _ _ (by decide +kernel)⟩,
    by decide +kernel, by decide +kernel⟩

/-- Where the fill descriptor above points. -/
def fillTarget : Target := { pos := none, pa := clusterAddr 0 0x2000, lim := some (clusterAddr 0 0x3000000) }

theorem witness_EngineBodyEffects :
    (dbits desc_engSetslot 8 7 6 = 0 ∧ zeroBytes desc_engSetslot 9 11 = true ∧ zeroBytes desc_engSetslot 32 63 = true) ∧
    (MemoryCanonical (engineAt 1 desc_dmaFill) ∧ dmaReserved desc_dmaFill = true ∧ 1 ≤ dbits desc_dmaFill 24 31 0 ∧ dbits desc_dmaFill 24 31 0 ≤ 2 ^ 24 ∧
      dbits desc_dmaFill 28 31 0 = 1 ∧ targetOf (engineAt 1 desc_dmaFill) 0 (dword desc_dmaFill 16) = .ok fillTarget ∧ fillTarget.pos = none ∧
      rangeOk (engineAt 1 desc_dmaFill) 0 fillTarget true fillTarget.pa (dbits desc_dmaFill 24 31 0) = true) := by
  refine ⟨by decide +kernel, ?_, by decide +kernel, by decide +kernel, by decide +kernel, by decide +kernel, rfl, rfl, by decide +kernel⟩
  show Memory.wf (engineAt 1 desc_dmaFill) = true
  decide +kernel

/-! ### Witnesses: phases, replicas, reflection, faults and the store -/

/-- A run of a plan in a phase; its used ports have drained or not. -/
def inPhase (p : Plan) (k : Nat) : State := { running with run := { Run.reset with plan := some p, step := 3, phase := k } }

/-- The same with port 0 used, on which no DRAIN has come. -/
def undrained (k : Nat) : State :=
  { inPhase planWired k with link := [(0, { Link.reset 0 with state := 4, used := true })], lnk := { State.reset.lnk with map := [(0, 0)] } }

/-- The same between steps, with that port not UP. -/
def lostUsed (k : Nat) : State := { undrained k with link := [(0, { Link.reset 0 with state := 0, used := true })] }

/-- A tainted step. -/
def tainted (k : Nat) : State := { inPhase plan0 k with run := { (inPhase plan0 k).run with tainted := true, start := some (savedOf State.reset) } }

theorem witness_PhasesComplete :
    ((inPhase plan0 7).run.plan = some plan0 ∧ phasesRun (inPhase plan0 7) plan0 = true ∧ usedUp (inPhase plan0 7) = true ∧ (inPhase plan0 7).run.phase = 7) ∧
    usedUp (lostUsed 7) = false ∧
    (phasesRun (inPhase plan0 1) plan0 = true ∧ (inPhase plan0 1).run.phase = 1 ∧ phaseEnded (inPhase plan0 1) plan0 = true ∧
      drained (sendDrains (inPhase plan0 1)) = true ∧ mayEnter (inPhase plan0 1) = true ∧ usedUp (inPhase plan0 1) = true) ∧
    (phasesRun (inPhase plan0 0) plan0 = true ∧ phaseEnded (inPhase plan0 0) plan0 = true ∧ drained (sendDrains (inPhase plan0 0)) = true ∧ mayEnter (inPhase plan0 0) = true ∧ usedUp (inPhase plan0 0) = true) ∧
    (phasesRun (undrained 0) planWired = true ∧ phaseEnded (undrained 0) planWired = true ∧ drained (sendDrains (undrained 0)) = false ∧ usedUp (undrained 0) = true) ∧
    unitRuns (inPhase plan0 2) 19 = true ∧
    (rerunReady (tainted 0) = true ∧ (tainted 0).run.phase ≠ 6 ∧ runLost (restoreLost (makeSwaps (tainted 0))) = false ∧
      (restoreLost (makeSwaps (tainted 0))).spr.fetches = [] ∧ (restoreLost (makeSwaps (tainted 0))).inReset 3 = false) ∧
    (rerunReady (tainted 6) = true ∧ (tainted 6).run.phase = 6 ∧ runLost (restoreLost (tainted 6)) = false ∧ (restoreLost (tainted 6)).spr.fetches = [] ∧
      (restoreLost (tainted 6)).inReset 3 = false) := by
  decide +kernel

/-- One tensor of one row, of shard 5, whose state lies at the start of stack 0's dense tier; a region of that tier holds a reflection. -/
def tensor0 : TensorDesc :=
  { rows := 1, state := 0, rule := 0, outer := 0, hpset := 0, gfmt := 0, wfmt := 1, dfmt := 0, shard := 5, grad := 0x10000, gfact := 0, work := 0x20000
    wscale := 0, delta := 0, localAddr := 0 }
def region0 : Region := { base := denseAddr 0 0x100000, length := 0x8010000, kind := 8 }
def planShard : Plan := { plan0 with update := [[tensor0]], regions := [region0] }
def replica0 : ReplicaEntry := { shard := 5, n := 3, routes := [0, 1] }

/-- Three replicas of the shard; the unit has done, with a digest of its own, and both others have sent the same one. -/
def peer (pos : Nat) (d : List Byte) : PeerDigest := { step := 3, shard := 5, pos := pos, flag := 0, digest := d }
def replicated (d : List Byte) : State :=
  { inPhase planShard 2 with
    upd := [(0, { UpdUnit.reset with done := true, digests := [(5, [1])] })]
    spr := { Spr.reset with replicasUse := [replica0], copiesDue := [5], digests := [peer 1 d, peer 2 d] } }

/-- Digest of the shard after the copy. -/
def copied (d : List Byte) : List Byte :=
  let u := applyShard (replicated d) 0 5 image0
  shardDigest u 0 (programOf u 0) (!bankOf u 0) 5

theorem majority_of (own d : List Byte) : majority 3 [(0, own), (1, d), (2, d)] = some d := by
  by_cases h : own = d
  · subst h
    simp [majority]
  · have h' : ¬(d = own) := fun e => h e.symm
    simp [majority, h, h']

theorem replicated_agrees (d : List Byte) :
    allDigests (replicated d) replica0 = some [(0, [1]), (1, d), (2, d)] ∧
    ∃ k und, agreed (replicated d) replica0 [(0, [1]), (1, d), (2, d)] = some (d, k, und) := by
  refine ⟨rfl, ?_⟩
  unfold agreed
  rw [show replica0.n = 3 from rfl, majority_of]
  exact ⟨_, _, rfl⟩

def copiedBytes (d : List Byte) : List Byte :=
  let u := applyShard (replicated d) 0 5 image0
  ((programOf u 0).filter fun t => t.shard == 5).flatMap fun t => readBytes u (masterAddr 0 t (!bankOf u 0) 0) (4 * t.n)
theorem copied_eq (d : List Byte) : copied d = sha3 (copiedBytes d) := by
  unfold copied copiedBytes shardDigest
  rfl
theorem copied_same : copied (copied []) = copied [] := by
  rw [copied_eq (copied []), copied_eq []]
  exact congrArg sha3 (by decide +kernel)
theorem copied_some : (copied []).length = 32 := by decide +kernel

theorem witness_ReplicaCommandsComplete :
    ((replicated []).run.plan = some planShard ∧ ((replicated []).spr.replicasUse.find? fun r => r.shard == 5) = some replica0 ∧
      runInProgress (replicated []) = true ∧
      (∀ x ∈ (replicated []).spr.digests, ¬(x.step = 3 ∧ x.shard = 5 ∧ x.pos = posIndex planShard (0, 0, 3) ∧ x.flag = 0))) ∧
    (5 ∈ (replicated (copied [])).spr.copiesDue ∧ shardStack (replicated (copied [])) 5 = some 0 ∧ (replicated (copied [])).run.abandoned = false ∧
      (∃ all k und, allDigests (replicated (copied [])) replica0 = some all ∧ agreed (replicated (copied [])) replica0 all = some (copied [], k, und)) ∧
      copied (copied []) = copied []) ∧
    (5 ∈ (replicated []).spr.copiesDue ∧ shardStack (replicated []) 5 = some 0 ∧
      (∃ all k und, allDigests (replicated []) replica0 = some all ∧ agreed (replicated []) replica0 all = some ([], k, und)) ∧ copied [] ≠ []) :=
  ⟨⟨rfl, rfl, rfl, by decide⟩,
   ⟨List.mem_singleton.mpr rfl, rfl, rfl, ⟨_, _, _, (replicated_agrees _).1, (replicated_agrees _).2.choose_spec.choose_spec⟩, copied_same⟩,
   ⟨List.mem_singleton.mpr rfl, rfl, ⟨_, _, _, (replicated_agrees _).1, (replicated_agrees _).2.choose_spec.choose_spec⟩,
    fun h => by have l := copied_some; rw [h] at l; cases l⟩⟩

/-- A run of `planShard` in REFLECT, with a buddy (serial 9) and a device whose reflection it holds (serial 8). -/
def reflecting (mode : ReflectMode) (phase : Nat) : State :=
  { inPhase planShard phase with
    run := { (inPhase planShard phase).run with commitDone := true }
    spr := { Spr.reset with buddyUse := 9, heldUse := 8, reflect := mode, fetches := [(0, 0, 0)] } }

/-- A held reflection of step 2 whose shard 5 is whole. -/
def holding : State :=
  { reflecting .difference 4 with
    mem := (((List.range 12).zip (leBytes 4 0x5245464C ++ [0, 0, 0, 0] ++ [0, 0, 0, 0])).map fun x => (region0.base + x.1, x.2)).filter (fun x => x.2 != 0) ++
      [(region0.base + 32, 2), (tagAddr region0.base 0, 5), (tagAddr region0.base 0 + 4, 2)] }

/-- A block of one byte, raw, at the first byte of the image. -/
def goodPiece : ReflectPiece := { piece0 with shard := 5, diff := true, block := rawBlock 5 [0x5A], step := 3 }

/-- A block that is malformed; what a block decodes to. -/
def decoded (t : State) (d : ReflectPiece) : Option (List Byte) :=
  match decodeBlock t (readHead (d.block.take 16)) d.block.length (d.block.drop 16) with | .ok bs => some bs | .error _ => none
/-- The same with a tag that names no step. -/
def untagged : State :=
  { holding with mem := holding.mem.dropLast ++ (List.range 8).map fun i => (tagAddr region0.base 0 + 4 + i, 0xFF) }
def fetched0 (tag : Nat) : ShardImage := { image0 with masters := [1, 2, 3, 4], tag := tag }
def afterCommit : State := { reflecting .difference 4 with run := { (reflecting .difference 4).run with committed := some 3 } }

theorem witness_ReflectionCommandsComplete_offer :
    (offer0.port < 48 ∧ (reflecting .opening 4).run.plan.isSome = true ∧ (reflecting .opening 4).spr.heldUse ≠ 0 ∧
      ({ offer0 with serial := 8, sizes := [0x8010000] } : ReflectOffer).serial = (reflecting .opening 4).spr.heldUse ∧
      regionsFit (reflecting .opening 4) [0x8010000] = false) ∧
    ((reflecting .opening 4).spr.buddyUse ≠ 0 ∧ ({ offer0 with serial := 9, fits := false } : ReflectOffer).serial = (reflecting .opening 4).spr.buddyUse ∧
      ({ offer0 with serial := 9, fits := false } : ReflectOffer).fits = false) ∧
    ((reflecting .opening 4).spr.heldUse ≠ 9 ∧ offer0.fits = true ∧ offered (reflecting .opening 4) = true ∧ Machine.reflecting (reflecting .opening 4) = true ∧
      (reflecting .opening 4).spr.reflect = .opening) ∧
    (offered (reflecting .unsure 4) = true ∧ Machine.reflecting (reflecting .unsure 4) = true ∧ (reflecting .unsure 4).spr.reflect = .unsure) ∧
    (offered (reflecting .opening 1) = true ∧ Machine.reflecting (reflecting .opening 1) = false) ∧
    offered (reflecting .difference 4) = false ∧
    (regionsFit (reflecting .opening 4) [0x800F000] = true ∧ (8 : BitVec 128) = (reflecting .opening 4).spr.heldUse ∧ (reflecting .opening 4).spr.buddyUse ≠ 8) := by
  decide +kernel

theorem witness_ReflectionCommandsComplete_data :
    (reflectionRegion holding 0 = some region0 ∧ decoded holding goodPiece = some [0x5A] ∧
      heldAddr region0 goodPiece.off + 1 ≤ region0.base + region0.length ∧ staleDifference holding region0 goodPiece = false) ∧
    (reflectionRegion untagged 0 = some region0 ∧ decoded untagged goodPiece = some [0x5A] ∧ staleDifference untagged region0 goodPiece = true) ∧
    decoded holding piece0 = none ∧
    (1 < ({ goodPiece with blocks := 2 } : ReflectPiece).blocks ∧ goodPiece.blocks ≤ 1 ∧ 1 < ({ goodPiece with shards := 2 } : ReflectPiece).shards ∧
      goodPiece.shards ≤ 1 ∧ holding.spr.received = [] ∧ holding.spr.whole = []) ∧
    ((0, 5, 3) ∈ ({ holding with spr := { holding.spr with erased := [(0, 5, 3)] } } : State).spr.erased ∧ (∀ x ∈ holding.spr.erased, x.2.2 ≠ 3)) := by
  decide +kernel

theorem holding_canonical : MemoryCanonical holding ∧ MemoryCanonical untagged :=
  ⟨(by decide +kernel : Memory.wf holding = true), (by decide +kernel : Memory.wf untagged = true)⟩

theorem witness_ReflectionCommandsComplete_rest :
    (runInProgress (reflecting .difference 4) = true ∧ (reflecting .difference 4).run.phase = 4 ∧ (reflecting .difference 4).run.commitDone = true ∧
      (reflecting .difference 4).spr.repairAfterReflect = none ∧ (reflecting .difference 4).run.step = 3) ∧
    ({ reflecting .difference 4 with spr := { (reflecting .difference 4).spr with repairAfterReflect := some 3 } } : State).spr.repairAfterReflect = some 3 ∧
    [((0 : Nat), (5 : Nat))] ≠ [] ∧
    (reflectionRegion holding 0 = some region0 ∧ (programOf holding 0)[0]? = some tensor0) ∧
    ((0, 0, 0) ∈ afterCommit.spr.fetches ∧ (programOf afterCommit 0)[0]? = some tensor0 ∧ image0.masters = [] ∧
      afterCommit.run.committed ≠ some (fetched0 2).tag ∧ (fetched0 3).masters ≠ [] ∧ afterCommit.run.committed = some (fetched0 3).tag) ∧
    MemoryCanonical afterCommit :=
  ⟨by decide, rfl, by decide, by decide +kernel, by decide, memoryCanonical_reset⟩

/-- A device whose tiers are scrubbed; stack 19 copies a die of each tier; a shadow core of cluster 39 is to be tested. -/
def copying : State :=
  { State.reset with glb := { Glb.reset with state := .ready }
                     stk := [(19, { Stk.reset with fastCopying := true, denseCopying := true, fastRunning := true, denseRunning := true })]
                     spr := { Spr.reset with swaps := [{ res := resWord (.core 479), written := true, tested := false }] } }

theorem witness_FaultEventsComplete :
    (wellFormed (.parityMismatch { mismatch0 with res := .column 479 3 33 }) = true ∧ working (dev .ready) = true ∧ onMemoryPath (.column 479 3 33) = true) ∧
    (wellFormed (.parityMismatch { mismatch0 with failures := 2 }) = true ∧ onMemoryPath (.bank 0 0) = true ∧
      (∀ c a j, (mismatch0.res ≠ .column c a j))) ∧
    wellFormed (.parityMismatch { mismatch0 with failures := 3 }) = true ∧
    (working (dev .ready) = true ∧ ((dev .ready).stack 19).scrubEn = true ∧ (dev .ready).pwr.low = 0 ∧ (dev .ready).pwr.dip = false ∧
      stackServes (dev .ready) 19 = true ∧ ((dev .ready).stack 19).denseCopying = false) ∧
    ({ Stk.reset with scrubEn := false, fastScrub := 5 } : Stk).fastScrub % 256 ≠ 0 ∧
    ((copying.stack 19).fastCopying = true ∧ (copying.stack 19).fastRunning = true ∧ (copying.stack 19).denseCopying = true ∧
      (copying.stack 19).denseRunning = true) ∧
    (copying.spr.swaps.find? fun w => resClass w.res == 1 && decide (w.res % 2 ^ 24 / 12 = 39) && w.written) =
      some { res := resWord (.core 479), written := true, tested := false } := by
  refine ⟨by decide, ⟨by decide, by decide, fun c a j h => by cases h⟩, by decide, by decide, by decide, by decide, by decide⟩

/-- A write of the store is in flight. -/
def storingNow : State :=
  { State.reset with pst := { Pst.reset with inFlight := some { index := ixWindow, value := 0x20000, own := false, ticket := 0, hook := .none } } }

theorem witness_StoreWriteCompletes :
    storingNow.pst.inFlight = some { index := ixWindow, value := 0x20000, own := false, ticket := 0, hook := .none } ∧ storeClocked storingNow = true ∧
    storingNow.pst.lost0 = false ∧ storingNow.pst.lost1 = false ∧ storingNow.pst.retry0 = false ∧ storingNow.pst.retry1 = false ∧
    storingNow.pst.fails1 < 2 ∧ storingNow.pst.fails0 < 2 := by
  decide


/-! ### Witnesses: resets, clocks and rails -/

/-- A dip since tick 0 at a tick; a device without REFCLK; one whose window ends. -/
def dipped (tick : Nat) : State := { dev .ready with pwr := { Pwr.reset with tick := tick, dip := true, low := 1 } }
def noClock : State := { dev .ready with pwr := { Pwr.reset with refPresent := false, refOk := false } }
def windowEnds (trial : Bool) : State :=
  { dev .ready with pwr := { Pwr.reset with tick := 60000000000 }, fw := { Fw.reset with trial := trial } }
/-- A reset held, with a code recorded. -/
def held (code : Nat) : State := { dev .cold with pwr := { Pwr.reset with resetHeld := true, rstCode := code } }

theorem witness_FullResetsComplete :
    ((dipped 200000).pwr.dip = true ∧ 200000 ≤ (dipped 200000).now - (dipped 200000).pwr.dipStart) ∧ noClock.pwr.refPresent = false ∧
    ((windowEnds true).glb.state ≠ .cold ∧ (windowEnds true).fw.dead = false ∧ (windowEnds true).fw.recovery = false ∧
      (windowEnds true).fw.windowDone = false ∧ 60000000000 ≤ (windowEnds true).now - (windowEnds true).fw.windowStart ∧ (windowEnds true).fw.trial = true) ∧
    ((windowEnds false).glb.state ≠ .cold ∧ (windowEnds false).fw.trial = false) ∧
    (({ dev .ready with mem := [(0, 1), (denseAddr 0 0, 2)] } : State).pwr.resetHeld = false ∧ storageOf 0 = 0 ∧ storageOf (denseAddr 0 0) = 1) ∧
    ((held 2).pwr.resetHeld = true ∧ (held 2).pwr.rstCode ≤ 5) := by
  decide

theorem witness_LowestResetCodeIsRecorded :
    (dev .ready).pwr.resetHeld = false ∧ (5 : Nat) ≠ 2 ∧ (held 2).pwr.resetHeld = true ∧ (1 < (held 2).pwr.rstCode) ∧ ¬(2 < (held 2).pwr.rstCode) := by
  decide

theorem witness_BootCommandsComplete :
    mayRelease (held 1) = true ∧
    ((dev .booting).glb.state = .booting ∧ (dev .booting).fw.dead = false ∧ (dev .booting).glb.fnReset = 0 ∧ portsSettled (dev .booting) = true) ∧
    ((dev .isolated).glb.state = .isolated ∧ (dev .isolated).pwr.dip = false ∧ (dev .isolated).fw.testClean = false ∧ (dev .isolated).fw.recovery = false ∧
      (dev .isolated).fw.testTries < 9) := by
  decide +kernel

/-- A Link PLL is out of lock. -/
def unlocked : State := { dev .ready with pwr := { Pwr.reset with unlocked := [(.link, 47)] } }

theorem witness_ClocksAndRailsComplete :
    ((0x100 : BitVec 9) ≠ 0 ∧ (2 : BitVec 9).getLsbD 1 = true ∧ (dev .ready).pwr.dip = false ∧ (dev .ready).pwr.low.getLsbD 1 = false) ∧
    ((dipped 200000).pwr.dip = true ∧ (dipped 200000).pwr.resetHeld = false ∧ (dipped 200000).now - (dipped 200000).pwr.dipStart ≤ 200000) ∧
    (dev .ready).pwr.refOk = true ∧ ((.compute, 9) ∉ (dev .ready).pwr.unlocked ∧ 9 < PllDomain.compute.count) ∧
    ((.link, 47) ∈ unlocked.pwr.unlocked ∧ 47 < PllDomain.link.count ∧ pllFed unlocked = true) := by
  decide

theorem witness_ThermalLevelMeasures : (31 < 32) ∧ (dev .ready).glb.state ≠ .cold ∧ (1600 : Int) ≤ 1600 ∧ (1551 : Int) < 1552 ∧ (1664 : Int) ≤ 1664 ∧ (1631 : Int) < 1632 := by
  decide

/-! ### Witnesses: links -/

/-- A used port 47 that has been down since tick 0, under a plan, at the limit. -/
def downLong : State :=
  { linkedReady with
    pwr := { Pwr.reset with tick := 0x00989680 }
    link := [(47, { Link.reset 47 with state := 0, used := true, downSince := some 0 })] }

theorem witness_LinkTrainingCompletes :
    mayTrain (portIn 0 0) 47 = true ∧ (1 ≤ ((portIn 1 0).port 47).state ∧ ((portIn 3 0).port 47).state ≤ 3) ∧
    (((portIn 3 0).port 47).state = 3 ∧ (portIn 3 0).inReset 3 = false ∧ linkClocked (portIn 3 0) 47 = true ∧ (portIn 3 0).glb.state ≠ .cold) ∧ (((portIn 4 0).port 47).state ≠ 0 ∧ ((portIn 4 0).port 47).state ≠ 5) ∧
    ((downLong.port 47).downSince = some 0 ∧ (downLong.port 47).state ≠ 4 ∧ downLong.lnk.downLimit ≤ downLong.now - 0 ∧ (downLong.port 47).used = true ∧
      downLong.run.plan.isSome = true ∧ (downLong.port 47).lostReported = false) := by
  decide

/-- An identity message of port 3 with serial number 9, in a protocol version. -/
def identBody (proto : Nat) : List Byte :=
  beBytes 2 1 ++ [3, 0x30] ++ beBytes 16 9 ++ List.replicate 40 0 ++ beBytes 2 proto ++ List.replicate 62 0
def identBytes (proto : Nat) : List Byte := identBody proto ++ beBytes 4 (crc32c (identBody proto))

/-- A CTRL flit of code 4 with that message, its parity that of R285 or another one. -/
def identFlitOf (proto : Nat) : Flit := { flit0 with typ := 3, payload := [4, 0, 0, 0] ++ identBytes proto ++ List.replicate 380 0 }
def identFlit (proto : Nat) (off : BitVec 136) : Flit := { identFlitOf proto with parity := flitParity (identFlitOf proto) + off }

theorem parity_of_flit (x : Flit) (p : BitVec 136) : flitParity { x with parity := p } = flitParity x := rfl

theorem identFlit_seen (proto : Nat) : seeTaint (takeAck (portIn 3 0) 47 (identFlit proto 0)) (identFlit proto 0) =
    seeTaint (takeAck (portIn 3 0) 47 flit0) flit0 := rfl

theorem witness_LinkTrainingCompletes_ident :
    (∀ proto off, (identFlit proto off).typ = 3 ∧ ctrlCode (identFlit proto off) = 4) ∧ hearsIdent (portIn 3 0) 47 = true ∧
    (∀ proto, (identFlit proto 1).parity ≠ flitParity (identFlit proto 1) ∧ (identFlit proto 0).parity = flitParity (identFlit proto 0)) ∧
    (∀ proto, let u := seeTaint (takeAck (portIn 3 0) 47 (identFlit proto 0)) (identFlit proto 0)
      hearsIdent u 47 = true ∧ (u.port 47).state = 3 ∧ u.spr.repairAfterReflect = none) ∧
    ((parseIdent (((identFlit 2 0).payload.drop 4).take 128)).map fun i => (i.port, i.serial, bit i.proto 1)) = some (3, 9, true) ∧
    ((parseIdent (((identFlit 1 0).payload.drop 4).take 128)).map fun i => bit i.proto 1) = some false := by
  refine ⟨fun _ _ => ⟨rfl, rfl⟩, by decide +kernel, fun p => ⟨?_, ?_⟩, fun p => ?_, by decide +kernel, by decide +kernel⟩
  · have e : flitParity (identFlit p 1) = flitParity (identFlitOf p) := parity_of_flit _ _
    have q : (identFlit p 1).parity = flitParity (identFlitOf p) + 1 := rfl
    rw [e, q]
    exact fun h => by bv_omega
  · have e : flitParity (identFlit p 0) = flitParity (identFlitOf p) := parity_of_flit _ _
    have q : (identFlit p 0).parity = flitParity (identFlitOf p) + 0 := rfl
    rw [e, q]
    exact BitVec.add_zero _
  · rw [identFlit_seen]
    decide +kernel

/-- A flit of a type and payload byte that is the next of its port, with the parity of R285 or another one. -/
def flitOf (typ : BitVec 4) (code : Byte) : Flit := { flit0 with typ := typ, payload := code :: List.replicate 511 0 }
def goodFlit (typ : BitVec 4) (code : Byte) : Flit := { flitOf typ code with parity := flitParity (flitOf typ code) }
def badFlit (typ : BitVec 4) (code : Byte) : Flit := { flitOf typ code with parity := flitParity (flitOf typ code) + 1 }

def flitKinds : List (BitVec 4 × Byte) := [(0, 0), (1, 0), (2, 0), (4, 0), (3, 1), (3, 2), (3, 3)]

theorem goodFlit_ack (t : BitVec 4) (c : Byte) : takeAck (portIn 4 0) 47 (goodFlit t c) = takeAck (portIn 4 0) 47 flit0 := rfl

theorem acked_port : (takeAck (portIn 4 0) 47 flit0).glb.state = .ready ∧ (takeAck (portIn 4 0) 47 flit0).inReset 3 = false ∧
    ((takeAck (portIn 4 0) 47 flit0).port 47).state = 4 ∧ flit0.seq = ((takeAck (portIn 4 0) 47 flit0).port 47).rxSeq + 1 := by decide +kernel

theorem witness_FlitsComplete : ∀ k ∈ flitKinds,
    carries (portIn 4 0) 47 (goodFlit k.1 k.2) = true ∧ (goodFlit k.1 k.2).parity = flitParity (goodFlit k.1 k.2) ∧
    carries (takeAck (portIn 4 0) 47 (goodFlit k.1 k.2)) 47 (goodFlit k.1 k.2) = true ∧
    (goodFlit k.1 k.2).seq = ((takeAck (portIn 4 0) 47 (goodFlit k.1 k.2)).port 47).rxSeq + 1 ∧
    ({ goodFlit k.1 k.2 with seq := 5 } : Flit).seq ≠ ((takeAck (portIn 4 0) 47 (goodFlit k.1 k.2)).port 47).rxSeq + 1 ∧
    (badFlit k.1 k.2).parity ≠ flitParity (badFlit k.1 k.2) ∧ (k.1 = 3 → ctrlCode (goodFlit k.1 k.2) = k.2.toNat) := by
  intro k hk
  obtain ⟨h1, h2, h3, h4⟩ := acked_port
  refine ⟨rfl, (parity_of_flit _ _).symm, ?_, ?_, ?_, ?_, fun _ => rfl⟩
  · rw [goodFlit_ack]
    unfold carries
    rw [h1, h2, h3]
    rfl
  · rw [goodFlit_ack]
    exact h4
  · rw [goodFlit_ack, ← h4]
    exact (by decide : 5 ≠ flit0.seq)
  · have hp : flitParity (badFlit k.1 k.2) = flitParity (flitOf k.1 k.2) := parity_of_flit _ _
    have hq : (badFlit k.1 k.2).parity = flitParity (flitOf k.1 k.2) + 1 := rfl
    rw [hp, hq]
    exact fun h => by bv_omega

/-! ### Witnesses: Ethernet, Fuelle and ingest -/

/-- Frames that each of orders 1 to 5 of R391 discards, and one that brings an Isaex packet. -/
def framed : State := { dev .ready with eth := [(1, { Eth.reset with linkUp := true, ipv4 := 0x0A000002, ipv6 := 5, pfc := 0x00022356 })] }
def isaexFrame : Frame := { frame0 with port := 1, transport := .udp 0xBAB8 false true, isaex := some ({ env0 with port := 1 }, []) }

/-- The header of a datagram; the port with its class 1 paused. -/
def head0 : NetHead := { tag := none, srcIp := 0, dstIp := 0, srcPort := 0, dstPort := 0, dscp := 0, ecn := 0, df := true, hops := 64, sum := 0 }
def pausedOne : State := framed.modEther 1 fun e => { e with paused := [(1, 5)] }

theorem witness_EthernetFramesComplete :
    (passes framed 1 = true ∧ framed.glb.state ≠ .cold) ∧
    ([{ frame0 with port := 1, fcsOk := false }, { frame0 with port := 1, tags := [7] }, { frame0 with port := 1, net := .otherEther },
      { frame0 with port := 1, transport := .otherProto }, { frame0 with port := 1 }].all fun f => (strangerDrop (countRx framed 1) f).isSome) = true ∧
    (strangerDrop (countRx framed 1) isaexFrame = none ∧ isaexFrame.transport = .udp framed.isx.port false true ∧
      isaexFrame.isaex = some ({ env0 with port := 1 }, []) ∧ ({ env0 with port := 1 } : Env).port = isaexFrame.port) ∧
    (answers framed 1 = true ∧ (framed.ether 1).ipv4 ≠ 0) ∧ ((5 : BitVec 128) ≠ 0 ∧ (5 : BitVec 128) = (framed.ether 1).ipv6) ∧
    (pfcOn (framed.ether 1) 1 = true ∧ (0x20 : BitVec 8).getLsbD (pcpOf (framed.ether 1) 1) = true) ∧
    (Sent.cls (.event 1 0 0 0 0 0 [] [] head0) = some 1 ∧ classPaused pausedOne 1 1 = true ∧ passes pausedOne 1 = true ∧ classPaused framed 1 1 = false ∧
      (framed.ether 1).waits = []) := by
  decide +kernel

/-- A Fuelle session of context 7 in a state, with its keys of epoch 0 and a round on its way, in a RUNNING device. -/
def round0 : TxRound :=
  { round := 3, sponsor := false, base := 0, length := 1024, blocks := [1024], gen := 0, psz := 1024, next := 3, resend := [], done := 0, resentAt := [], heardAt := 0
    complete := false }
def fulOf (st : Nat) : FulCtx :=
  { FulCtx.reset with state := st, peerIp := 0xFFFF0A000003, peerPort := 5000, peerCtx := 9, slot := 0, weight := 0x3F800000, k := 8, m := 2, psz := 1024, pszUse := 1024
                      root := some { id := 2, key := [9] }, saltOwn := 1, saltPeer := 2, txEpochs := [0], rxHi := some 0, rxSeen := 1, rxEpochs := [0], offerRx := 3, tx := [round0] }
def fulled (st : Nat) : State :=
  { fuelled with
    glb := { Glb.reset with state := .running }
    run := { fuelled.run with step := 2, phase := 5 }
    eth := [(0, { Eth.reset with linkUp := true, ipv4 := 0x0A000002, nextHop := 5 })]
    fctx := [(7, fulOf st)] }

/-- Packet 1 of a type with its payload, under the session key; an OFFER of salt 3 under the offer key. -/
def pktOf (typ k m index : Nat) (plain : List Byte) : FPkt :=
  { fpkt0 with typ := typ, context := 7, k := k, m := m, index := index, len := plain.length, plain := plain }
def sealed (s : State) (f : FPkt) : FPkt :=
  { f with tag := BitVec.ofNat 128 (beNat (gcmSeal (fulKey s 7 3 false 0) (nonceOf 3 (fulDir s 7 false) 0 0 1) (fulHeader f) f.plain).2) }
def offer1 : FPkt := { pktOf 4 0 0 0 (List.replicate 36 0) with round := 0, group := 3 }
def offered : State := (fulled 2).modFuelle 7 fun c => { c with saltPeer := 3 }
def sealOffer (f : FPkt) : FPkt :=
  { f with tag := BitVec.ofNat 128 (beNat (gcmSeal (fulKey offered 7 2 false 0) (nonceOf 2 (fulDir offered 7 false) 0 0 1) (fulHeader f) f.plain).2) }
def sealedOffer : FPkt := sealOffer offer1

theorem offer_tag (f : FPkt) (h : f.seq = 1) : fulTagOk offered 7 2 0 (sealOffer f) = true := by
  have e : (sealOffer f).seq = 1 := h
  unfold fulTagOk
  rw [e]
  exact beq_iff_eq.mpr rfl

theorem seal_fields (f : FPkt) : fulFieldsOk (sealOffer f) = fulFieldsOk f ∧ offerSalt (sealOffer f) = offerSalt f := ⟨rfl, rfl⟩

/-- What remains to be seen of a packet. -/
def fulReady (f : FPkt) : Bool := f.context == 7 && f.port == 0 && f.version == 1 && f.epoch == 0 && f.seq == 1 && fulFieldsOk f &&
  f.srcIp == 0xFFFF0A000003 && f.srcPort == 5000 && decide (f.plain.length ≤ 65536)

theorem ful_reaches (f : FPkt) (h : fulReady f = true) : FulReaches f (fulled 2) := by
  simp only [fulReady, Bool.and_eq_true, beq_iff_eq] at h
  obtain ⟨⟨⟨⟨⟨⟨⟨⟨h1, h2⟩, h3⟩, h4⟩, h5⟩, h6⟩, h7⟩, h8⟩, h9⟩ := h
  refine ⟨h2 ▸ by decide, h2 ▸ ⟨by decide, by decide⟩, ⟨by decide, by decide⟩, h3, ?_, ?_⟩
  · rw [h1, h2]
    decide
  · rw [h1, h7, h8]
    exact ⟨rfl, rfl⟩

theorem seal_reaches (f : FPkt) (h : fulReady f = true) : FulReaches (sealOffer f) (fulled 2) :=
  have h := ful_reaches f h
  ⟨h.port, h.up, h.engines, h.version, h.context, h.peer⟩

theorem ful_accepts (f : FPkt) (h : fulReady f = true) : FulAccepts (sealed (fulled 2) f) (fulled 2) := by
  have hr := ful_reaches f h
  simp only [fulReady, Bool.and_eq_true, beq_iff_eq] at h
  obtain ⟨⟨⟨⟨⟨⟨⟨⟨h1, h2⟩, h3⟩, h4⟩, h5⟩, h6⟩, h7⟩, h8⟩, h9⟩ := h
  have e1 : (sealed (fulled 2) f).context = 7 := h1
  have e2 : (sealed (fulled 2) f).epoch = 0 := h4
  have e3 : (sealed (fulled 2) f).seq = 1 := h5
  have e4 : fulCount (sealed (fulled 2) f) = 1 := by
    unfold fulCount
    rw [e2, e3]
    rfl
  refine ⟨⟨hr.port, hr.up, hr.engines, hr.version, hr.context, hr.peer⟩, ?_, ?_, ?_, ?_, ?_, ?_, h6⟩
  · rw [e1, e2]; decide
  · rw [e1, e4]; decide
  · rw [e1]; decide
  · rw [e1, e2]; decide
  · have ep : (sealed (fulled 2) f).port = 0 := h2
    rw [e1, ep]
    exact (request_first (fulled 2) 0 _ 32 _ rfl (by decide) (of_decide_eq_true h9)).2
  · unfold fulTagOk
    rw [e1, e2, e3]
    exact beq_iff_eq.mpr rfl

/-- The SEQ of an OFFER is new for its salt; a session in which it is not. -/
def offerFresh (s : State) (f : FPkt) : Bool :=
  let w := (s.fuelle f.context).offerWindow (offerSalt f)
  windowOk w.1 w.2 f.seq.toNat
def offerSeenBefore : State := { fulled 2 with fctx := [(7, { fulOf 2 with offerSeen := [(3, (1, 1))] })] }

theorem witness_FuellePacketsComplete :
    FulAccepts (sealed (fulled 2) (pktOf 1 192 64 191 [1])) (fulled 2) ∧ FulAccepts (sealed (fulled 2) (pktOf 2 8 2 9 [1])) (fulled 2) ∧
    FulAccepts (sealed (fulled 2) (pktOf 3 0 0 0 (List.replicate 28 0))) (fulled 2) ∧ FulAccepts (sealed (fulled 2) (pktOf 5 0 0 0 [])) (fulled 2) ∧
    FulAccepts (sealed (fulled 2) (pktOf 6 0 0 0 [0, 0, 0, 0])) (fulled 2) ∧
    (FulReaches sealedOffer (fulled 2) ∧ sealedOffer.typ = 4 ∧ sealedOffer.epoch = 0 ∧ (fulled 2).keys.cur.isSome = true ∧ offerSalt sealedOffer ≠ 0 ∧
      ((fulled 2).fuelle sealedOffer.context).offerRx = offerSalt sealedOffer ∧
      offerFresh (fulled 2) sealedOffer = true ∧
      (requestKey (countRx (fulled 2) sealedOffer.port) sealedOffer.port (offerName sealedOffer.context false (offerSalt sealedOffer)) 32
        sealedOffer.plain.length).2 = true ∧
      fulTagOk ((fulled 2).modFuelle sealedOffer.context fun c => { c with saltPeer := offerSalt sealedOffer }) sealedOffer.context 2 0 sealedOffer = true ∧
      fulFieldsOk sealedOffer = true) ∧
    (FulReaches { offer1 with group := 4 } (fulled 2) ∧ offerSalt { offer1 with group := 4 } ≠ 0 ∧
      ((fulled 2).fuelle { offer1 with group := 4 }.context).offerRx ≠ offerSalt { offer1 with group := 4 } ∧ offerFresh (fulled 2) { offer1 with group := 4 } = true) ∧
    (FulReaches offer1 offerSeenBefore ∧ offerFresh offerSeenBefore offer1 = false) := by
  have e1 : offerSalt sealedOffer = 3 := (seal_fields offer1).2.trans (by decide)
  have e2 : ((fulled 2).modFuelle sealedOffer.context fun c => { c with saltPeer := offerSalt sealedOffer }) = offered := by
    rw [e1]
    rfl
  have e3 : fulTagOk ((fulled 2).modFuelle sealedOffer.context fun c => { c with saltPeer := offerSalt sealedOffer }) sealedOffer.context 2 0 sealedOffer = true := by
    rw [e2]
    exact offer_tag offer1 rfl
  exact ⟨ful_accepts _ (by decide), ful_accepts _ (by decide), ful_accepts _ (by decide), ful_accepts _ (by decide), ful_accepts _ (by decide),
    ⟨seal_reaches _ (by decide), rfl, rfl, rfl, by rw [e1]; decide, e1.symm, by decide +kernel, (request_first _ 0 _ 32 36 rfl (by decide) (by decide)).2, e3,
      (seal_fields offer1).1.trans (by decide)⟩,
    ⟨ful_reaches _ (by decide), by decide, by decide, by decide⟩,
    ⟨by decide, ⟨by decide, by decide⟩, ⟨by decide, by decide⟩, rfl, ⟨by decide, rfl, by decide⟩, ⟨rfl, rfl⟩⟩, by decide⟩

/-- A closed round whose formation is due; a join whose session has its snapshot. -/
def formingRound : State :=
  { fulled 2 with ful := { Ful.reset with closed := some 4 }, run := { (fulled 2).run with phase := 0 } }
def joining : State :=
  { fulled 3 with
    ful := { Ful.reset with joinSince := some 0, joinFor := 0xB2D05E00 }
    pwr := { Pwr.reset with tick := 0xB2D05E00 }
    fctx := [(7, { fulOf 3 with join := true, installed := true })] }

/-- A session that has waited 16 × RTO for an ACK. -/
def unanswered : State :=
  { fulled 2 with pwr := { Pwr.reset with tick := 16000 }, fctx := [(7, { fulOf 2 with rto := 1000, awaiting := some 0 })] }

theorem witness_FuelleTimersAndRoundsComplete :
    (fulSched (fulled 2) = some sched0 ∧ ((fulled 2).fuelle 7).state = 2 ∧ ((fulled 2).fuelle 7).saltPeer ≠ 0 ∧ fulQuiet (fulled 2) 7 = false ∧
      ((fulled 2).ether (portOf 7)).nextHop ≠ 0) ∧
    (((fulled 2).fuelle 7).rxHi.isSome = true ∧ (fulled 2).now - ((fulled 2).fuelle 7).newestAt ≤ ackInterval ((fulled 2).fuelle 7)) ∧
    (({ fulled 1 with fctx := [(7, { fulOf 1 with saltPeer := 0 })] } : State).fuelle 7).saltPeer = 0 ∧
    (((fulled 3).fuelle 7).state = 3 ∧ ((fulled 3).fuelle 7).saltPeer ≠ 0 ∧ ((fulled 3).fuelle 7).installed = false ∧ fulQuiet (fulled 3) 7 = false) ∧
    ((((abandonRounds (fulled 2) 7).fuelle 7).tx.find? fun x =>
        decide (x.total ((abandonRounds (fulled 2) 7).fuelle 7) ≤ x.next) && x.resend.isEmpty &&
          decide (x.done < x.groupCount ((abandonRounds (fulled 2) 7).fuelle 7).k ∧ (abandonRounds (fulled 2) 7).now - x.heardAt ≥
            ((abandonRounds (fulled 2) 7).fuelle 7).rto * ((abandonRounds (fulled 2) 7).fuelle 7).rtoScale)) = some round0) ∧
    (unanswered.fuelle 7).awaiting = some 0 ∧ 16 * (unanswered.fuelle 7).rto ≤ unanswered.now - 0 ∧ (unanswered.fuelle 7).saltPeer ≠ 0 ∧
    (sendRound (fulled 2) = some 2 ∧ runInProgress (fulled 2) = true ∧ (fulled 2).run.phase = 5 ∧ (fulled 2).run.abandoned = false ∧
      (fulled 2).run.exchangeDone = false ∧ (fulled 2).inReset 4 = false) ∧
    (formingRound.ful.closed = some 4 ∧ runInProgress formingRound = true ∧ formingRound.ful.ready = false ∧ formingRound.inReset 4 = false ∧
      formingRound.run.phase ≤ 2) ∧
    (joining.run.plan = some planFul ∧ fulSched joining = some sched0 ∧ joining.ful.joinSince = some 0 ∧ (∃ e ∈ joining.fctx, e.2.joining = true) ∧
      (∀ e ∈ joining.fctx, e.2.joining = true → e.2.installed = true) ∧ joining.ful.joinFor ≤ joining.now - 0) := by
  decide +kernel

/-- Stream 0 has asked for record 0 at a try. -/
def reading (tries : Nat) : State :=
  { ingesting with
    eth := [(0, { Eth.reset with linkUp := true, nextHop := 5 })]
    ing := [(0, { IngStream.reset with sport := 6000, saddr := 0xFFFF0A000004, cookie := 5, reads := [{ reqid := 0, record := 0, tries := tries, sentAt := 0, landed := [] }] })]
    pwr := { Pwr.reset with tick := 200000 } }
def readPkt (typ : Nat) (ok : Bool) : IPkt :=
  let q : IPkt := { ipkt0 with typ := typ, context := 5, object := 1, length := 4, payload := [1, 2, 3, 4] }
  { q with check := BitVec.ofNat 32 (ingestCheck q) ^^^ (if ok then 0 else 1) }
def read0 : IngRead := { reqid := 0, record := 0, tries := 1, sentAt := 0, landed := [] }

/-- The same with stack 0, which holds its ring, held; and with C2 full. -/
def readingHeld (waiting : Nat) : State :=
  { reading 1 with
    pwr := { (reading 1).pwr with holdStk := 1 }
    eth := [(0, { Eth.reset with linkUp := true, nextHop := 5, c2 := List.replicate waiting ipkt0 })] }

theorem witness_IngestArrivalsComplete :
    (passes (reading 1) 0 = true ∧ (reading 1).glb.state ≠ .cold ∧ (openPorts (reading 1) 0).contains (readPkt 2 true).dport = true ∧
      (openPorts (reading 1) 0).contains 7001 = false ∧ ((reading 1).ether 0).c2 = [] ∧ landWaits (reading 1) (readPkt 2 true) = false) ∧
    readOf (reading 1) { readPkt 2 true with cookie := 6 } = none ∧
    (readOf (reading 1) (readPkt 2 true) = some (0, stream0, read0) ∧ readRangeOk stream0 read0 (readPkt 2 true) = true ∧
      ingestCheck (readPkt 2 true) = (readPkt 2 true).check.toNat ∧ ingestCheck (readPkt 2 false) ≠ (readPkt 2 false).check.toNat ∧
      readRangeOk stream0 read0 { readPkt 2 true with offset := 61 } = false) ∧
    (readOf (reading 1) (readPkt 3 true) = some (0, stream0, read0) ∧ errorRangeOk stream0 read0 (readPkt 3 true) = true ∧
      ingestCheck (readPkt 3 true) = (readPkt 3 true).check.toNat ∧ ingestCheck (readPkt 3 false) ≠ (readPkt 3 false).check.toNat ∧
      errorRangeOk stream0 read0 { readPkt 3 true with offset := 61 } = false) ∧
    (landWaits (readingHeld 0) (readPkt 2 true) = true ∧ ((readingHeld 0).ether 0).c2.length < 512 ∧ 512 ≤ ((readingHeld 512).ether 0).c2.length) ∧
    (streamEntry (reading 7) 0 = some stream0 ∧ (((reading 7).stream 0).reads.find? fun r => r.record == 0) = some { read0 with tries := 7 } ∧
      ingestRuns (reading 7) (stream0.context / 0x2000 % 2) = true ∧ ({ read0 with tries := 7 } : IngRead).tries < 8 ∧ 8 ≤ ({ read0 with tries := 8 } : IngRead).tries ∧
      200000 ≤ (reading 7).now - read0.sentAt ∧ ({ reading 7 with pwr := Pwr.reset } : State).now - read0.sentAt < 200000) := by
  decide +kernel

/-! ### Witnesses: rules stated whole -/

/-- A bundle of core 7 whose slot 7 kicks engine 10. -/
def kick10 : State := atBundle [(0, 1), (2, 0x80), (116, 0x38), (119, 0x80), (120, 2)] []

theorem witness_KickOfNoEngineIsRefused :
    coreRuns kick10 7 = true ∧ (kick10.core 7).bun = none ∧ kick10.glb.state ≠ .quiesced ∧ mustWait (kick10.core 7) (fetch kick10 7) = false ∧
    (readP (kick10.core 7) 7 (bpredOf (fetch kick10 7))).getLsbD 0 = true ∧ slotEnabled (fetch kick10 7) 7 = true ∧
    opOf (slotWord (fetch kick10 7) 7) = 0x38 ∧ 10 ≤ bits (slotWord (fetch kick10 7) 7) 33 30 := by
  decide +kernel

/-- States whose latches are those that a read of `CLK_TICK_LO` leaves, or that hold none. -/
theorem witness_LowWordsLatchHighWords :
    ({ State.reset with latches := (readReg State.reset 0x20000).2.latches } : State).latches = (readReg State.reset 0x20000).2.latches ∧
    tfind State.reset.latches (0x20000 + 4) = none := ⟨rfl, rfl⟩

/-- Operands of FMT 6. -/
def vin6 : VIn := { x := Core.reset, c := 0, w := 6 <<< 49, mask := BitVec.allOnes 512 }
theorem witness_IntegerVectorResults : vin6.fmt = 6 := by decide


/-! ### A plan image that every check of a commit passes -/

/-- Bytes that are not 0, by plan-space offset: the header before its digest; directory and sections. The phase table is all 0: every
core idle in every phase. One region of kind 3 holds the ring of one ingest stream. -/
def imageLow : List (Nat × Byte) :=
  [(0, 78), (1, 65), (2, 76), (3, 80), (4, 1), (8, 1), (24, 144), (25, 26), (26, 1), (32, 32), (44, 1), (45, 1), (46, 1), (52, 1), (53, 1), (54, 1),
   (56, 1)]
def imageDirectory : List (Nat × Byte) :=
  [(256, 5), (265, 8), (272, 224), (288, 6), (297, 9), (304, 32), (320, 7), (328, 64), (329, 9), (336, 32), (337, 6), (352, 9), (361, 16), (368, 112), (384, 2), (393, 32),
   (401, 14), (402, 1), (416, 3), (448, 3), (450, 1), (480, 3), (482, 2), (512, 3), (514, 3), (544, 3), (546, 4), (576, 3), (578, 5), (608, 3), (610, 6), (640, 4),
   (672, 4), (674, 1), (704, 4), (706, 2), (736, 4), (738, 3), (768, 4), (770, 4), (800, 4), (802, 5), (832, 4), (834, 6), (864, 4), (866, 7), (896, 4), (898, 8),
   (928, 4), (930, 9), (960, 4), (962, 10), (992, 4), (994, 11), (1024, 4), (1026, 12), (1056, 4), (1058, 13), (1088, 4), (1090, 14), (1120, 4), (1122, 15), (1152, 4), (1154, 16),
   (1184, 4), (1186, 17), (1216, 4), (1218, 18), (1248, 4), (1250, 19)]
def imageSections : List (Nat × Byte) :=
  [(2314, 1), (2320, 3), (2368, 1), (2372, 1), (4096, 1), (4098, 255), (4099, 255), (4128, 1), (4130, 88), (4131, 27), (4132, 112), (4133, 23), (4160, 64), (4164, 1), (4176, 2), (4184, 4),
   (4192, 5)]

/-- The memory that holds the image with a digest. -/
def digestCells (d : List Byte) : List Host.Cell := (List.range 32).map fun i => (0x5F0000040 + i, d.getD i 0)
def imageMem (d : List Byte) : List Host.Cell :=
  (imageLow.map fun x => (0x5F0000000 + x.1, x.2)) ++ (digestCells d ++ (imageDirectory ++ imageSections).map fun x => (0x5F0000000 + x.1, x.2))

/-- An ISOLATED device with a confirmed image, that memory, and a commit of it. -/
def imaged (d : List Byte) : State :=
  { State.reset with glb := { Glb.reset with state := .isolated, imageConfirmed := true }, mem := imageMem d }
def committed (d : List Byte) : State := served (hosted (imaged d)) (envFor (hosted (imaged d)) 0x32 (List.replicate 8 0))

/-- The digest of R252. -/
def imageDigest : List Byte := planDigest (imaged [])

/-- Two memories list the same addresses, and the same bytes outside a set of them. -/
def sameBut (k : Nat → Bool) : List Host.Cell → List Host.Cell → Bool
  | [], [] => true
  | (a, v) :: r, (b, w) :: q => a == b && (k a || v == w) && sameBut k r q
  | _, _ => false

theorem cellFind_same (k : Nat → Bool) (l m : List Host.Cell) (h : sameBut k l m = true) (a : Nat) (ha : k a = false) : cellFind l a = cellFind m a := by
  induction l generalizing m with
  | nil => cases m with
    | nil => rfl
    | cons c r => cases h
  | cons c r ih => cases m with
    | nil => cases h
    | cons e q =>
      obtain ⟨x, v⟩ := c
      obtain ⟨y, w⟩ := e
      simp only [sameBut, Bool.and_eq_true, Bool.or_eq_true, beq_iff_eq] at h
      obtain ⟨⟨rfl, hv⟩, hr⟩ := h
      unfold cellFind
      by_cases e : x = a
      · subst e
        rcases hv with hv | hv
        · rw [ha] at hv
          cases hv
        · rw [hv, if_pos rfl, if_pos rfl]
      · rw [if_neg e, if_neg e, ih q hr]

/-- The addresses of the digest. -/
def inDigest (a : Nat) : Bool := decide (planAddr 64 ≤ a ∧ a < planAddr 96)

theorem inDigest_plan (p : Nat) (h : p < 64 ∨ 96 ≤ p) : inDigest (planAddr p) = false := by
  unfold inDigest planAddr fastAddr
  simp only [decide_eq_false_iff_not]
  omega

/-- The states agree on plan space outside the digest. -/
structure Alike (s t : State) : Prop where
  mem : sameBut inDigest s.mem t.mem = true
  gens : s.gens = t.gens

theorem planBytes_alike {s t : State} (h : Alike s t) (off n : Nat) (hr : off + n ≤ 64 ∨ 96 ≤ off) : planBytes s off n = planBytes t off n := by
  refine List.map_congr_left fun i hi => ?_
  have hi := List.mem_range.mp hi
  have hd : ∀ a, memDefault s a = memDefault t a := fun a => by unfold memDefault genAt; rw [h.gens]
  unfold planByte readByte
  rw [hd, cellFind_same inDigest _ _ h.mem _ (inDigest_plan (off + i) (by omega))]

theorem planBytes_append (s : State) (off m n : Nat) : planBytes s off (m + n) = planBytes s off m ++ planBytes s (off + m) n := by
  simp [planBytes, List.range_add, List.map_append, List.map_map, Function.comp_def, Nat.add_assoc]

theorem planBytes_length (s : State) (off n : Nat) : (planBytes s off n).length = n := by simp [planBytes]

theorem header_parts (s : State) : (planHeader s).take 64 = planBytes s 0 64 ∧ (planHeader s).drop 96 = planBytes s 96 160 ∧
    ((planHeader s).drop 64).take 32 = planBytes s 64 32 ∧ le (planHeader s) 32 4 = planLe s 32 4 := by
  have e : planHeader s = planBytes s 0 64 ++ (planBytes s 64 32 ++ planBytes s 96 160) := by
    have e1 := planBytes_append s 0 64 192
    have e2 := planBytes_append s 64 32 160
    exact e1.trans (congrArg _ e2)
  have l1 := planBytes_length s 0 64
  have l2 := planBytes_length s 64 32
  refine ⟨?_, ?_, ?_, ?_⟩
  · rw [e]
    exact List.take_left' l1
  · rw [e, show (96 : Nat) = 64 + 32 from rfl, ← List.drop_drop, List.drop_left' l1]
    exact List.drop_left' l2
  · rw [e, List.drop_left' l1]
    exact List.take_left' l2
  · have h1 : planBytes s 0 64 = planBytes s 0 32 ++ (planBytes s 32 4 ++ planBytes s 36 28) :=
      (planBytes_append s 0 32 32).trans (congrArg _ (planBytes_append s 32 4 28))
    unfold le planLe
    rw [e, h1, List.append_assoc, List.append_assoc, List.drop_left' (planBytes_length s 0 32), List.take_left' (planBytes_length s 32 4)]

theorem sections_alike {s t : State} (h : Alike s t) : planSections s = planSections t := by
  unfold planSections
  rw [(header_parts s).2.2.2, (header_parts t).2.2.2]
  have e : planLe s 32 4 = planLe t 32 4 := congrArg leNat (planBytes_alike h 32 4 (by omega))
  rw [e]
  refine List.map_congr_left fun k _ => ?_
  unfold planSection
  rw [planBytes_alike h _ _ (by omega)]

theorem digest_alike {s t : State} (h : Alike s t) (hs : ∀ x ∈ planSections t, x.offset + x.length ≤ 64 ∨ 96 ≤ x.offset) :
    planDigest s = planDigest t := by
  unfold planDigest
  rw [sections_alike h]
  simp only [(header_parts s).1, (header_parts t).1, (header_parts s).2.1, (header_parts t).2.1]
  rw [planBytes_alike h 0 64 (by omega), planBytes_alike h 96 160 (by omega), planBytes_alike h 256 _ (by omega)]
  refine congrArg sha3 (congrArg _ ?_)
  rw [List.flatMap_def, List.flatMap_def]
  exact congrArg _ (List.map_congr_left fun x hx => planBytes_alike h _ _ (hs x hx))

theorem committed_alike : Alike (committed imageDigest) (imaged []) := ⟨by decide +kernel, rfl⟩

theorem sha3_length (m : List Byte) : (sha3 m).length = 32 := by
  have ha : ∀ (n : Nat) (a : List W64) (bs : List Byte), a.length = 25 → (absorb 136 n a bs).length = 25 := by
    intro n
    induction n with
    | zero => exact fun a _ h => h
    | succ n ih => exact fun a bs _ => ih _ _ (keccakRounds_length _ _ _ (by simp))
  have hl : ∀ l : List W64, (l.flatMap fun x => leBytes 8 x.toNat).length = 8 * l.length := by
    intro l
    induction l with
    | nil => rfl
    | cons x l ih => rw [List.flatMap_cons, List.length_append, ih, leBytes_length, List.length_cons]; omega
  unfold sha3 keccak256 sponge
  have h1 : ∀ a : List W64, squeeze 136 ((32 + 136 - 1) / 136) a = (a.take 17).flatMap (fun l => leBytes 8 l.toNat) ++ [] := fun _ => rfl
  simp only [h1, List.append_nil]
  rw [List.length_take, hl, List.length_take, ha _ _ _ (List.length_replicate ..)]
  rfl

/-- Where the digest lies in the memory. -/
theorem cellFind_after (l m : List Host.Cell) (a : Nat) (h : l.all (fun c => decide (c.1 < a)) = true) : cellFind (l ++ m) a = cellFind m a := by
  induction l with
  | nil => rfl
  | cons c r ih =>
    simp only [List.all_cons, Bool.and_eq_true, decide_eq_true_eq] at h
    obtain ⟨x, v⟩ := c
    have h1 : ¬ x = a := Nat.ne_of_lt h.1
    have h2 : ¬ a < x := Nat.not_lt.mpr (Nat.le_of_lt h.1)
    exact (by rw [List.cons_append, cellFind, if_neg h1, if_neg h2]; exact ih h.2)

theorem cellFind_run (f : Nat → Byte) (m : List Host.Cell) (base a n i : Nat) (h1 : a ≤ i) (h2 : i < a + n) :
    cellFind ((List.range' a n).map (fun k => (base + k, f k)) ++ m) (base + i) = some (f i) := by
  induction n generalizing a with
  | zero => omega
  | succ n ih =>
    rw [List.range'_succ, List.map_cons, List.cons_append, cellFind]
    by_cases e : a = i
    · subst e
      exact if_pos rfl
    · rw [if_neg (by omega), if_neg (by omega)]
      exact ih (a + 1) (by omega) (by omega)

theorem planAddr_low (i : Nat) (h : i < 32) : planAddr (64 + i) = 0x5F0000040 + i := by
  unfold planAddr fastAddr
  omega

theorem digest_stored (d : List Byte) (h : d.length = 32) (s : State) (hm : s.mem = imageMem d) : planBytes s 64 32 = d := by
  have e : ∀ i < 32, planByte s (64 + i) = d.getD i 0 := by
    intro i hi
    have hk : (imageLow.map fun x => ((0x5F0000000 + x.1, x.2) : Host.Cell)).all (fun c => decide (c.1 < 0x5F0000040)) = true := by decide +kernel
    have hk' : (imageLow.map fun x => ((0x5F0000000 + x.1, x.2) : Host.Cell)).all (fun c => decide (c.1 < 0x5F0000040 + i)) = true := by
      rw [List.all_eq_true] at hk ⊢
      intro c hc
      have := of_decide_eq_true (hk c hc)
      exact decide_eq_true (by omega)
    unfold planByte readByte
    rw [hm, planAddr_low i hi, imageMem, cellFind_after _ _ _ hk', digestCells, List.range_eq_range', cellFind_run _ _ _ 0 32 i (by omega) (by omega)]
    rfl
  refine List.ext_getElem (by rw [planBytes_length, h]) fun i h1 h2 => ?_
  rw [planBytes_length] at h1
  simp only [planBytes, List.getElem_map, List.getElem_range]
  rw [e i h1]
  rw [List.getD_eq_getElem?_getD, List.getElem?_eq_getElem h2]
  rfl

/-- A phase table of zeros is in order. -/
theorem leNat_zeros (n : Nat) : leNat (List.replicate n 0) = 0 := by
  induction n with
  | zero => rfl
  | succ n ih => rw [List.replicate_succ, leNat, ih]; rfl

theorem le_zeros (n i m : Nat) : le (List.replicate n 0) i m = 0 := by
  unfold le
  rw [List.drop_replicate, List.take_replicate, leNat_zeros]

theorem zeroAt_zeros (n i m : Nat) : zeroAt (List.replicate n 0) i m = true := by
  unfold zeroAt
  rw [List.drop_replicate, List.take_replicate]
  simp

theorem phaseTable_zeros : phaseTableBad (List.replicate 69120 0) 0 = false := by
  unfold phaseTableBad blockOffset
  simp only [le_zeros, zeroAt_zeros, List.length_replicate, List.drop_replicate, List.take_replicate, blockBytes]
  decide +kernel

theorem cellFind_none (l : List Host.Cell) (a : Nat) (h : ∀ c ∈ l, c.1 ≠ a) : cellFind l a = none := by
  induction l with
  | nil => rfl
  | cons c r ih =>
    obtain ⟨x, v⟩ := c
    have h1 : ¬ x = a := h (x, v) (List.mem_cons_self ..)
    rw [cellFind, if_neg h1]
    split
    · rfl
    · exact ih fun c hc => h c (List.mem_cons_of_mem _ hc)

/-- No cell between two offsets of the first stack's plan space. -/
theorem planBytes_zeros (s : State) (off n : Nat) (hg : s.gens = []) (hp : off + n ≤ 0x10000000)
    (hm : s.mem.all (fun c => decide (c.1 < 0x5F0000000 + off ∨ 0x5F0000000 + (off + n) ≤ c.1)) = true) : planBytes s off n = List.replicate n 0 := by
  refine List.ext_getElem (by rw [planBytes_length, List.length_replicate]) fun i h1 h2 => ?_
  rw [planBytes_length] at h1
  simp only [planBytes, List.getElem_map, List.getElem_range, List.getElem_replicate]
  have hf : cellFind s.mem (planAddr (off + i)) = none := by
    refine cellFind_none _ _ fun c hc => ?_
    have := of_decide_eq_true (List.all_eq_true.mp hm c hc)
    unfold planAddr fastAddr
    omega
  unfold planByte readByte
  rw [hf]
  simp [memDefault, genAt, hg, tget]

/-- Plan bytes from the cells near them. -/
def nearBytes (l : List Host.Cell) (off n : Nat) : List Byte :=
  let l := l.filter fun c => decide (0x5F0000000 + off ≤ c.1 ∧ c.1 < 0x5F0000000 + (off + n))
  (List.range n).map fun i => (l.find? fun c => c.1 == 0x5F0000000 + (off + i)).elim 0 (·.2)

/-- The cells lie at strictly rising addresses. -/
def rising : List Host.Cell → Bool
  | x :: y :: r => decide (x.1 < y.1) && rising (y :: r)
  | _ => true

theorem rising_lt (c : Host.Cell) (r : List Host.Cell) (h : rising (c :: r) = true) : ∀ e ∈ r, c.1 < e.1 := by
  induction r generalizing c with
  | nil => intro e he; cases he
  | cons y r ih =>
    simp only [rising, Bool.and_eq_true, decide_eq_true_eq] at h
    intro e he
    rcases List.mem_cons.mp he with rfl | he
    · exact h.1
    · exact Nat.lt_trans h.1 (ih y h.2 e he)

theorem rising_tail (c : Host.Cell) (r : List Host.Cell) (h : rising (c :: r) = true) : rising r = true := by
  cases r with
  | nil => rfl
  | cons y r => simp only [rising, Bool.and_eq_true] at h; exact h.2

theorem cellFind_find (l : List Host.Cell) (a : Nat) (h : rising l = true) : (cellFind l a).getD 0 = (l.find? fun c => c.1 == a).elim 0 (·.2) := by
  induction l with
  | nil => rfl
  | cons c r ih =>
    have hr := ih (rising_tail c r h)
    have hl := rising_lt c r h
    obtain ⟨x, v⟩ := c
    rw [cellFind, List.find?_cons]
    by_cases e : x = a
    · subst e
      simp
    · rw [if_neg e, beq_eq_false_iff_ne.mpr e]
      split
      · rename_i ha
        have : (r.find? fun c => c.1 == a) = none := List.find?_eq_none.mpr fun e he hh => by
          have h1 := hl e he
          have h2 : e.1 = a := eq_of_beq hh
          exact absurd (h2 ▸ h1) (Nat.lt_asymm ha)
        rw [this]
        rfl
      · exact hr

theorem find_filter (l : List Host.Cell) (p q : Host.Cell → Bool) (h : ∀ c, p c = true → q c = true) : (l.filter q).find? p = l.find? p := by
  rw [List.find?_filter]
  congr 1
  funext c
  cases hp : p c
  · simp
  · simp [h c hp]

theorem planBytes_near (s : State) (off n : Nat) (hg : s.gens = []) (hp : off + n ≤ 0x10000000) (hs : rising s.mem = true) :
    planBytes s off n = nearBytes s.mem off n := by
  refine List.map_congr_left fun i hi => ?_
  have hi := List.mem_range.mp hi
  have ha : planAddr (off + i) = 0x5F0000000 + (off + i) := by
    unfold planAddr fastAddr
    omega
  rw [find_filter _ _ _ (fun c hc => decide_eq_true (by have := eq_of_beq hc; omega)), ← cellFind_find _ _ hs]
  unfold planByte readByte
  simp [ha, memDefault, genAt, hg, tget]

/-- The directory of the image: five sections in use, the others of length 0. -/
def imageDirectoryList : List Section :=
  [⟨5, 0, 2048, 224, 0, false⟩, ⟨6, 0, 2304, 32, 0, false⟩, ⟨7, 0, 2368, 1568, 0, false⟩, ⟨9, 0, 4096, 112, 0, false⟩, ⟨2, 0, 8192, 69120, 0, false⟩] ++
    ((List.range 7).map fun k => ⟨3, k, 0, 0, 0, false⟩) ++ (List.range 20).map fun k => ⟨4, k, 0, 0, 0, false⟩

theorem image_rising : rising (committed imageDigest).mem = true := by decide +kernel

/-- Entry k of the directory, from the cells near it. -/
def nearSection (l : List Host.Cell) (k : Nat) : Section :=
  let e := nearBytes l (256 + 32 * k) 32
  { kind := le e 0 1, index := le e 2 2, offset := le e 8 5, length := le e 16 5, dest := le e 24 7
    bad := !(zeroAt e 1 1 && zeroAt e 4 4 && zeroAt e 13 3 && zeroAt e 21 3 && zeroAt e 31 1) }

theorem image_sections : planSections (committed imageDigest) = imageDirectoryList := by
  have h : (List.range 32).map (nearSection (committed imageDigest).mem) = imageDirectoryList := by decide +kernel
  have n : le (planHeader (committed imageDigest)) 32 4 = 32 := by decide +kernel
  rw [← h]
  unfold planSections
  rw [n]
  refine List.map_congr_left fun k hk => ?_
  have hk := List.mem_range.mp hk
  unfold planSection nearSection
  rw [planBytes_near _ _ _ rfl (by omega) image_rising]

/-- The bytes of its wiring section. -/
theorem wiring_bytes : planBytes (committed imageDigest) 2368 1568 = [1, 0, 0, 0, 1] ++ List.replicate 1563 0 := by
  refine (planBytes_append _ 2368 5 1563).trans ?_
  rw [planBytes_zeros _ (2368 + 5) 1563 rfl (by decide) (by decide +kernel)]
  exact congrArg (· ++ _) (by decide +kernel)

/-- The committed image passes the checks of orders 2 and 3. -/
theorem header_good : headerBad (committed imageDigest) = false := by decide +kernel
theorem directory_good : directoryBad (committed imageDigest) = false := by
  unfold directoryBad
  rw [image_sections]
  decide +kernel
theorem features_good : (planOf (committed imageDigest)).features &&& (committed imageDigest).fw.features = (planOf (committed imageDigest)).features := by decide +kernel
theorem update_good : updateBad (committed imageDigest) (planOf (committed imageDigest)) = false := by decide +kernel
theorem regions_good : regionsBad (committed imageDigest) (planOf (committed imageDigest)) = false := by decide +kernel
theorem routes_good : routesBad (committed imageDigest) (planOf (committed imageDigest)) = false := by decide +kernel
theorem wiring_good : wiringBad (committed imageDigest) (planOf (committed imageDigest)) = false := by
  have h : sectionBytes (committed imageDigest) (planSections (committed imageDigest)) 7 0 = [1, 0, 0, 0, 1] ++ List.replicate 1563 0 := by
    rw [image_sections]
    exact wiring_bytes
  unfold wiringBad
  rw [h]
  decide +kernel
theorem gen_good : (planOf (committed imageDigest)).gen ≠ 0 := by decide +kernel
theorem sections_clear : (planSections (imaged [])).all (fun x => decide (x.offset + x.length ≤ 64 ∨ 96 ≤ x.offset)) = true := by decide +kernel

theorem digest_good : planDigest (committed imageDigest) = ((planHeader (committed imageDigest)).drop 64).take 32 := by
  have h1 : planDigest (committed imageDigest) = imageDigest :=
    digest_alike committed_alike fun x hx => of_decide_eq_true (List.all_eq_true.mp sections_clear x hx)
  rw [h1, (header_parts _).2.2.1]
  exact (digest_stored imageDigest (sha3_length _) _ rfl).symm

theorem phaseTable_image : sectionBytes (committed imageDigest) (planSections (committed imageDigest)) 2 0 = List.replicate 69120 0 := by
  have h : getSection (planSections (committed imageDigest)) 2 0 = some ⟨2, 0, 0x2000, 69120, 0, false⟩ := by
    rw [image_sections]
    decide
  unfold sectionBytes
  rw [h]
  exact planBytes_zeros _ _ _ rfl (by decide) (by decide +kernel)

/-- An ISOLATED device with a confirmed image and nothing in plan space. -/
def bare : State := { State.reset with glb := { Glb.reset with state := .isolated, imageConfirmed := true } }

theorem phases_good : phasesBad (committed imageDigest) (planOf (committed imageDigest)) = false := by
  have he : (planOf (committed imageDigest)).e = 0 := by decide +kernel
  have hf : (planOf (committed imageDigest)).fbk = false := by decide +kernel
  unfold phasesBad
  simp only [phaseTable_image, he, hf, phaseTable_zeros, Bool.false_and, Bool.false_or, if_true]
  decide +kernel

theorem image_good : planReason (committed imageDigest) false = 0 := by
  unfold planReason
  rw [if_neg (by rw [header_good]; decide), if_neg (by rw [directory_good]; decide), if_neg (fun h => h digest_good)]
  simp only [features_good, update_good, regions_good, routes_good, phases_good, gen_good, wiring_good, ne_eq, not_true_eq_false, if_false,
    Bool.false_eq_true, Bool.false_and]

theorem commitArgs : (be (List.replicate 8 (0 : Byte)) 0 1 == 1) = false := by decide

theorem witness_PlanCommitCompletes :
    (Accepts (plainCmd 0x32 inI 8 fun p => decide (be p 0 1 < 2) && resv0 p 1 7) (envFor (hosted (imaged imageDigest)) 0x32 (List.replicate 8 0))
        (List.replicate 8 0) (hosted (imaged imageDigest)) ∧
      (hosted (imaged imageDigest)).glb.imageConfirmed = true ∧ (hosted (imaged imageDigest)).long.commit = none ∧
      planReason (served (hosted (imaged imageDigest)) (envFor (hosted (imaged imageDigest)) 0x32 (List.replicate 8 0)))
        (be (List.replicate 8 0) 0 1 == 1) = 0) ∧
    (Accepts (plainCmd 0x32 inI 8 fun p => decide (be p 0 1 < 2) && resv0 p 1 7) (envFor (hosted bare) 0x32 (List.replicate 8 0))
        (List.replicate 8 0) (hosted bare) ∧
      (hosted bare).glb.imageConfirmed = true ∧ (hosted bare).long.commit = none ∧
      planReason (served (hosted bare) (envFor (hosted bare) 0x32 (List.replicate 8 0))) (be (List.replicate 8 0) 0 1 == 1) ≠ 0) := by
  refine ⟨⟨accepts_hosted _ _ _ (by decide), rfl, rfl, ?_⟩, accepts_hosted _ _ _ (by decide), rfl, rfl, ?_⟩
  · rw [commitArgs]
    exact image_good
  · unfold planReason
    rw [if_pos (by decide +kernel)]
    exact Nat.one_ne_zero

/-- A finite code of E4M3, beside the others of R23. -/
theorem witness_TopExponentOfE4M3IsFinite : (6 : Nat) < 7 := by decide

/-! ### The spec's worked examples -/

/-- Values of "Worked example — conversions of specific values": input in FP32, format, code, SAT. -/
def conversions : List (W32 × NumFmt × Nat × Bool) :=
  [(0x3E99999A, .e4m3, 0x2A, false), (0x3E99999A, .e5m2, 0x35, false), (0x43E60000, .e4m3, 0x7E, false), (0x43FA0000, .e4m3, 0x7E, true),
   (0x3A83126F, .e4m3, 0x01, false), (0x3A800000, .e4m3, 0x00, false), (0x47700000, .e5m2, 0x7B, true), (0xFF800000, .e5m2, 0xFC, false),
   (0x40A00000, .fp4, 0x6, false), (0x3F808000, .bf16, 0x3F80, false), (0xC0200000, .int8, 0xFE, false), (0x42FF0000, .int8, 0x7F, true)]

theorem test_conversions : ∀ x ∈ conversions, (convertNum x.2.1 true (ofF32 x.1)).1 = x.2.2.1 ∧ (convertNum x.2.1 true (ofF32 x.1)).2.sat = x.2.2.2 := by
  decide +kernel

/-- The rows of that table that set OVF in the gradient class: 500, 61,440, −∞ and 127.5. -/
theorem test_conversions_ovf : conversions.map (fun x => (convertNum x.2.1 true (ofF32 x.1)).2.ovf) =
    [false, false, false, true, false, false, true, true, false, false, false, true] := by decide +kernel

/-- "Worked example — one stochastic addition": 1 + 3 × 2^-25 with the draw 0x9A3C17 becomes 1 + 2^-23. -/
theorem test_stochastic_addition : roundStochastic (Machine.Num.add (.fin false 1 0) (.fin false 3 (-25))) 0x9A3C17 = 0x3F800001 := by decide +kernel

/-- "Worked example — decoding a fast-tier address and its board-shared form". -/
theorem test_fast_tier_address : placeOf 0x004923456C00 = .fast 12 0x123456C00 ∧ inPlanRegion 0x004923456C00 = false := by decide +kernel

/-- "Worked example — one AdamW parameter, and its working copy", with P1 and P2 as after R234. -/
def adamHyper : Hyper :=
  { lr := 0x3A83126F, wd := 0x3C23D70A, b1 := 0x3F666666, b2 := 0x3F7FBE77, eps := 0x322BCC77, lro := 0, muo := 0, p1 := 0x37DED02C, p2 := 0x3F67A074 }
def adamResult : W32 × W32 × W32 := innerRule 3 0x3F000000 0x39000000 0x31800000 0x38000000 0 adamHyper

/-- The new master rounds to 0.4994240 and its BF16 copy is 0x3F00 = 0.5. -/
theorem test_adam_master : Machine.Num.lt true (ofF32 0x3EFFB47D) (ofF32 adamResult.1) = true ∧ Machine.Num.lt true (ofF32 adamResult.1) (ofF32 0x3EFFB484) = true ∧
    (convertNum .bf16 false (ofF32 adamResult.1)).1 = 0x3F00 := by decide +kernel

/-- The moments are stored as 0x77 under e_m = 2^21 and 0x74 under e_r = 2^28. -/
theorem test_adam_moments : (convertNum .e4m3 false ((ofF32 adamResult.2.1).mul (.fin false 1 21))).1 = 0x77 ∧
    (convertNum .e5m2 false ((Machine.Num.sqrt (ofF32 adamResult.2.2)).mul (.fin false 1 28))).1 = 0x74 := by decide +kernel

/-- "Worked example — one short block, coded, raw and mis-declared": 40 bytes in five, and the code of symbol 256 is 0000. -/
def exampleLengths : List Nat :=
  (List.range 272).map fun y => if y = 259 ∨ y = 256 then 4 else if y = 258 ∨ y = 257 then 5 else if y = 0x38 ∨ y = 0xB8 then 6 else 0
def exampleBlock : List Byte := List.replicate 30 0 ++ [0x38, 0xB8] ++ List.replicate 8 0

theorem test_codec_symbols : planeSymbols exampleLengths 0 exampleBlock = [259, 258, 257, 256, 0x38, 0xB8, 258] ∧
    (assignCodes exampleLengths).find? (fun c => c.1 == 256) = some (256, 4, 0) := by decide +kernel

theorem test_codec_block : (encodePlane exampleLengths exampleBlock).map (·.length) = some 5 := by decide +kernel


/-! ### Keys, segments, training, reflection: further witnesses and tests -/

/-- A unit whose queue holds a request while another waits outside; pairs lost to an alarm. -/
def derivingMore : State :=
  { dev .ready with cip := [(1, { Cip.reset with kdf := [.fuelleTx 7 0], kdfOut := [.isaex 0x2001 0 true] })] }

/-- Core 7 at a bundle that waits for 2 of token 5, which its counter holds. -/
def mayIssue : State := atBundle [(0, 1), (3, 5), (4, 2)] [(5, 2)]

theorem witness_further :
    ((derivingMore.cipher 1).kdf = [.fuelleTx 7 0] ∧ (derivingMore.cipher 1).kdfOut = [.isaex 0x2001 0 true]) ∧
    ((({ State.reset.keys with identity := false } : Keys).identity && State.reset.keys.kem) = false ∧ (dev .ready).keys.majorAt ≠ some (dev .ready).pwr.tick) ∧
    ((readP (mayIssue.core 7) 7 (bpredOf (fetch mayIssue 7))).getLsbD 0 = true ∧ bundleValid (mayIssue.core 7) (fetch mayIssue 7) = true ∧
      loopTooDeep (mayIssue.core 7) 7 (fetch mayIssue 7) = false ∧ kickHeld mayIssue 7 (fetch mayIssue 7) = false) ∧
    ((reflecting .difference 1).spr.reflect ≠ .opening ∧ Machine.reflecting (reflecting .difference 1) = false ∧
      (reflecting .difference 1).spr.heldUse ≠ 9) ∧
    tagOf { holding with mem := holding.mem.dropLast } region0 tensor0.shard ≠ heldStep { holding with mem := holding.mem.dropLast } region0 ∧
    ({ Stk.reset with scrubEn := false, fastScrub := 5 } : Stk).fastScrub % 256 ≠ 0 ∧
    ((dev .ready).glb.state ≠ .running ∧ linkClocked (dev .ready) 47 = true) ∧
    ((tfind (dev .ready).pwr.temps 31).any outOfRange = false ∧ outOfRange 1841 = true ∧ outOfRange (-401) = true ∧ outOfRange 1840 = false) := by
  decide +kernel

/-- R374: a key serves 2^28 requests and 2^36 bytes, no more, and is then spent. -/
theorem test_key_limits :
    KeyUse.fits { name := isaexName 1 true 0, calls := 2 ^ 28 - 1, bytes := 2 ^ 36 - 16, spent := false } 16 = true ∧
    KeyUse.fits { name := isaexName 1 true 0, calls := 2 ^ 28, bytes := 0, spent := false } 16 = false ∧
    KeyUse.fits { name := isaexName 1 true 0, calls := 0, bytes := 2 ^ 36 - 15, spent := false } 16 = false ∧
    (KeyUse.charge { name := isaexName 1 true 0, calls := 2 ^ 28, bytes := 0, spent := false } 16).spent = true := by
  decide

/-- R381: 256 bytes of additional data and 65,536 of plaintext are allowed, one more is not, and neither is nothing at all. -/
theorem test_request_lengths : requestOk 256 65536 = true ∧ requestOk 257 0 = false ∧ requestOk 0 65537 = false ∧ requestOk 0 0 = false := by
  decide

/-- R380: a request that finds 64 queued waits outside, whatever its class. -/
theorem test_derivation_queue :
    (Cip.ask { Cip.reset with kdf := List.replicate 64 (.fuelleTx 7 0) } (.isaex 1 0 true)).kdfOut = [.isaex 1 0 true] ∧
    (Cip.ask { Cip.reset with kdf := List.replicate 63 (.fuelleTx 7 0) } (.isaex 1 0 true)).kdf.head? = some (.isaex 1 0 true) := by
  decide

/-- R161: bank (offset div 512) mod 32. -/
theorem test_cluster_bank : clusterBank 0x41FF = 0 ∧ clusterBank 0x4200 = 1 ∧ clusterBank 0x3FFF = 31 := by
  decide

/-- R194: a command performs one segment of the work; the descriptor ends with the last. -/
theorem test_segment :
    let s := (engineAt 3 0).modEngine 0 3 fun e => { e with desc := 0x101, work := some [[.oob 2], [.oob 5]] }
    ((runSegment s 0 3 0).engine 0 3).work = some [[.oob 5]] ∧ ((runSegment s 0 3 0).cluster 0).oob = 2 ∧
    ((runSegment (runSegment s 0 3 0) 0 3 0).engine 0 3).desc = 0 ∧ ((runSegment (runSegment s 0 3 0) 0 3 0).cluster 0).oob = 7 := by
  decide +kernel

/-- R293: a port with its signal takes order 1; one whose lanes have not locked takes no identity message. -/
theorem test_training :
    (match exec (.signalDetect 5) (dev .ready) with | .next t => (t.port 5).state | _ => 9) = 1 ∧
    hearsIdent ((dev .ready).modPort 5 fun x => { x with state := 1 }) 5 = false := by
  decide +kernel

/-- R328: the shard of an erased block is not acknowledged; the last block names it. -/
theorem test_erased_shard :
    (endReflection { reflecting .difference 4 with spr := { (reflecting .difference 4).spr with held := 1, erased := [(0, 5, 3)] } } 3).spr.held = 1 ∧
    (endReflection { reflecting .difference 4 with spr := { (reflecting .difference 4).spr with held := 1, erased := [] } } 3).spr.held = 3 := by
  decide +kernel

/-- R113: 48 significant bits, the leading one included; the tie goes to even. -/
theorem test_tree_round :
    (treeRound (.fin false (2 ^ 48 + 1) 0)).eqv (.fin false (2 ^ 47) 1) = true ∧
    (treeRound (.fin false (2 ^ 48 + 3) 0)).eqv (.fin false (2 ^ 47 + 2) 1) = true ∧
    (treeRound (.fin false (2 ^ 48 - 1) 0)).eqv (.fin false (2 ^ 48 - 1) 0) = true := by
  decide +kernel


/-! ### Witnesses: BUSY in a reset, what comes while a bundle is in progress, and what waits -/

/-- A state with a function in reset. -/
def resetting (t : State) (fn : Nat) : State := { t with glb := { t.glb with fnReset := 1 <<< fn } }

theorem witness_busy_in_reset :
    (Accepts (plainCmd 0x40 inR 8 fun p => resv0 p 4 4) (envFor (hosted (resetting planned 1)) 0x40 (List.replicate 8 0)) (List.replicate 8 0)
        (hosted (resetting planned 1)) ∧ (hosted (resetting planned 1)).inReset 1 = true) ∧
    (Accepts (plainCmd 0x70 inRUQ 40 fulOpenOk) (envFor (hosted (resetting fuelled 4)) 0x70 (openArgs 0)) (openArgs 0) (hosted (resetting fuelled 4)) ∧
      Accepts (plainCmd 0x71 inRUQ 8 fulCtxOk) (envFor (hosted (resetting fuelled 4)) 0x71 [0, 7, 0, 0, 0, 0, 0, 0]) [0, 7, 0, 0, 0, 0, 0, 0]
        (hosted (resetting fuelled 4)) ∧ (hosted (resetting fuelled 4)).inReset 4 = true ∧ (hosted fuelled).inReset 4 = false) ∧
    (Accepts (plainCmd 0xB0 inIRUQ 8 fun p => decide (be p 0 2 = 0)) (envFor (hosted (resetting (portIn 4 0) 3)) 0xB0 port47) port47
        (hosted (resetting (portIn 4 0) 3)) ∧
      Accepts (plainCmd 0xB1 inIRUQ 8 fun p => decide (be p 0 2 = 0)) (envFor (hosted (resetting (portIn 4 0) 3)) 0xB1 port47) port47
        (hosted (resetting (portIn 4 0) 3)) ∧ (hosted (resetting (portIn 4 0) 3)).inReset 3 = true ∧ (hosted (portIn 0 4)).inReset 3 = false) ∧
    (Accepts (plainCmd 0xC1 inR 16 fun p => resv0 p 2 6) (envFor (hosted (resetting ingesting 5)) 0xC1 (List.replicate 16 0)) (List.replicate 16 0)
        (hosted (resetting ingesting 5)) ∧
      Accepts (plainCmd 0xC2 inIR 32 fun p => decide (be p 0 2 < 2048) && resv0 p 20 4) (envFor (hosted (resetting ingesting 5)) 0xC2 (List.replicate 32 0))
        (List.replicate 32 0) (hosted (resetting ingesting 5)) ∧ (hosted (resetting ingesting 5)).inReset 5 = true ∧ (hosted ingesting).inReset 5 = false) :=
  ⟨⟨accepts_hosted _ _ _ (by decide), by decide⟩, ⟨accepts_hosted _ _ _ (by decide), accepts_hosted _ _ _ (by decide), by decide, by decide⟩,
   ⟨accepts_hosted _ _ _ (by decide), accepts_hosted _ _ _ (by decide), by decide, by decide⟩,
   ⟨accepts_hosted _ _ _ (by decide), accepts_hosted _ _ _ (by decide), by decide, by decide⟩⟩

theorem witness_erasing :
    Accepts { plainCmd 0x80 inIRUQN 0 (fun p => slotOk p && resv0 p 1 7) with len := fun n => decide (17 ≤ n ∧ n ≤ 8960) }
      (envFor (hosted erasing) 0x80 writeArgs) writeArgs (hosted erasing) ∧
    slotStatus (hosted erasing) (be writeArgs 0 1) true = 0 ∧ Machine.erasing (hosted erasing) (be writeArgs 0 1) = true :=
  ⟨accepts_hosted _ _ _ (by decide), by decide, by decide⟩

/-- A session under a root key that the device holds no more, or no owner's key yet. -/
def ownedAnew : State := { owned with keys := { owned.keys with owner := some { id := 9, key := [] } } }

theorem witness_provision_refused :
    Accepts rootCmd (envFor (hosted ownedAnew) 0x92 (blobWith 0 (List.replicate 16 0))) (blobWith 0 (List.replicate 16 0)) (hosted ownedAnew) ∧
    alreadyHeld (hosted ownedAnew) (blobWith 0 (List.replicate 16 0)) = false ∧
    mayProvision (hosted ownedAnew) (envFor (hosted ownedAnew) 0x92 (blobWith 0 (List.replicate 16 0))) (blobWith 0 (List.replicate 16 0)) = false :=
  ⟨accepts_hosted _ _ _ (by decide +kernel), by decide, by decide⟩

/-- A device QUIESCED from RUNNING. -/
def quiescedRun : State := { running with glb := { Glb.reset with state := .quiesced, prior := some .running } }

theorem witness_resume_into_run :
    Accepts (urgentCmd 2 0 fun _ => true) (envFor (hosted quiescedRun) 2 []) [] (hosted quiescedRun) ∧ (hosted quiescedRun).glb.state = .quiesced ∧
    (hosted quiescedRun).glb.prior = some .running ∧ (hosted quiescedRun).isx.parking = false ∧ (hosted quiescedRun).run.ending = false ∧
    (hosted quiescedRun).run.releaseAtResume = false ∧ ∀ g < 40, ∀ k < 10, ((hosted quiescedRun).engine g k).lists = [] :=
  ⟨accepts_hosted _ _ _ (by decide), by decide, by decide, by decide, by decide, by decide, by decide⟩

/-- Core 479 with a bundle in progress that enables TOKSET of token 5 with its predicate on; tokens have arrived in its cycle. -/
def toksetBun : Bun := { bunOf 7 0x32 with raw := (bunOf 7 0x32).raw + BitVec.ofNat 1024 (5 * 2 ^ (slotBase 7 + 30)), arrived := [5] }
def tokening : State := { running with cores := [(479, { Core.reset with active := true, bun := some toksetBun })] }

/-- Core 7 at a bundle that waits, whose BPRED is off; one that names a reserved opcode; and one whose KICK finds a full queue. -/
def offBundle : State := atBundle [(0, 1), (2, 0x80), (3, 5), (4, 2), (6, 0x10)] [(5, 2)]
def badBundle : State := atBundle [(0, 1), (2, 0x80), (3, 5), (4, 2), (116, 0x7F)] [(5, 2)]
def fullQueue : State :=
  { atBundle [(0, 1), (2, 0x80), (3, 5), (4, 2), (116, 0x38)] [(5, 2)] with
    clusters := [(0, { Cluster.reset with engines := [(0, { Engine.reset with lists := List.replicate 8 0 })] })] }

def issueKind (i : Issue) : Nat := match i with | .stay => 0 | .ready _ => 1 | .faulted _ => 2

theorem witness_TokenEventsComplete_more :
    (tokenPending (tokening.core 479) 0x32 5 = true ∧ tokenPending (running.core 479) 0x32 5 = false ∧ tokening.inReset 1 = false ∧
      (tokening.core 479).spoiled = false ∧ 65534 + arrivals (tokening.core 479) 5 ≤ 65535 ∧ 65535 < 65535 + arrivals (tokening.core 479) 5) ∧
    (mustWait (offBundle.core 7) (fetch offBundle 7) = true ∧ (readP (offBundle.core 7) 7 (bpredOf (fetch offBundle 7))).getLsbD 0 = false) ∧
    (issueKind (tryIssue mayIssue 7 (fetch mayIssue 7)) = 1 ∧ issueKind (tryIssue badBundle 7 (fetch badBundle 7)) = 2 ∧
      issueKind (tryIssue fullQueue 7 (fetch fullQueue 7)) = 0) ∧
    (mustWait (fullQueue.core 7) (fetch fullQueue 7) = true ∧ coreRuns fullQueue 7 = true ∧ coreRuns badBundle 7 = true) := by
  decide +kernel

/-- The chain witness while the core has a bundle in progress, and where the slot has not been written. -/
def chainedBusy : State := { chained with cores := [(479, { Core.reset with active := true, bun := some (bunOf 7 1) })] }

theorem witness_TokenEventsComplete_chain :
    ((chained.core 479).bun = none ∧ tokenPending (chained.core 479) 0x32 63 = false ∧ tfind (landRecords (chained.core 479)).chain 130 = none ∧
      readT (chained.core 479) 63 < 65535) ∧
    ((chainedBusy.core 479).bun = some (bunOf 7 1) ∧ tokenPending (chainedBusy.core 479) 0x32 63 = false ∧ readT (chainedBusy.core 479) 63 < 65535) := by
  decide +kernel

theorem witness_EngineBodyEffects_place : ∀ a, fillTarget.pa ≤ a → a < fillTarget.pa + 4 → ∀ c o, placeOf a ≠ .cache c o := by
  intro a h1 h2 c o h
  have hi : a = fillTarget.pa + (a - fillTarget.pa) := by omega
  have hk : a - fillTarget.pa < 4 := by omega
  have all : ∀ i < 4, (match placeOf (fillTarget.pa + i) with | .cache _ _ => false | _ => true) = true := by decide +kernel
  have := all _ hk
  rw [← hi, h] at this
  cases this

theorem witness_FuelleTimersAndRoundsComplete_quiet :
    ((fulled 2).fuelle 7).awaiting = none ∧ ((fulled 2).fuelle 7).state = 2 ∧ ((fulled 2).fuelle 7).saltPeer ≠ 0 := by
  decide

end Sys2Proof.Tests
end

section
/-!
SUPPORT. Writes of the WP registers (R12, R443, R444, O16): where an offset of register space lies (R208), what a host write does that
the persistent store takes, and what each WP row asks of the store.
-/
namespace Sys2Proof.Safety

open Sys2Proof.Machine

/-! ### The map of register space (R208) -/

/-- An offset that unit `n` of a block holds is found in it. -/
theorem inst_inside {base stride count n o : Nat} (hn : n < count) (ho : o < stride) :
    inst (base + stride * n + o) base stride count = some (n, o) := by
  have hfit : stride * n + stride ≤ stride * count := by
    rw [← Nat.mul_succ]
    exact Nat.mul_le_mul_left _ hn
  have hsub : base + stride * n + o - base = o + stride * n := by omega
  refine (if_pos (by omega)).trans ?_
  rw [hsub, Nat.add_mul_div_left _ _ (by omega), Nat.div_eq_of_lt ho, Nat.add_mul_mod_self_left, Nat.mod_eq_of_lt ho, Nat.zero_add]

theorem inst_beyond {off base stride count : Nat} (h : base + stride * count ≤ off) : inst off base stride count = none :=
  if_neg (by omega)

/-- A block ends before the next one begins. -/
abbrev EndsBefore (x y : Block × Nat × Nat × Nat) : Prop := x.2.1 + x.2.2.2 * x.2.2.1 ≤ y.2.1

theorem blockMap_ascends : blockMap.Pairwise EndsBefore := by decide

/-- In a list of blocks each of which ends before the later ones begin, an offset is found in its own block. -/
theorem findSome_inst {b : Block} {base count stride n o : Nat} (hn : n < count) (ho : o < stride)
    (l : List (Block × Nat × Nat × Nat)) (hl : l.Pairwise EndsBefore) (hb : (b, base, count, stride) ∈ l) :
    (l.findSome? fun x => (inst (base + stride * n + o) x.2.1 x.2.2.2 x.2.2.1).map fun y => (x.1, y)) = some (b, n, o) := by
  induction l with
  | nil => cases hb
  | cons x l ih =>
    obtain ⟨hx, hl⟩ := List.pairwise_cons.mp hl
    rcases List.mem_cons.mp hb with rfl | hb
    · simp [inst_inside hn ho]
    · have hbefore : x.2.1 + x.2.2.2 * x.2.2.1 ≤ base := hx _ hb
      have hmiss := inst_beyond (off := base + stride * n + o) (Nat.le_trans hbefore (by omega))
      simpa [hmiss] using ih hl hb

/-- An offset that a unit of a block holds is found there. -/
theorem regAt_inside {b : Block} {base count stride n o off : Nat} (hb : (b, base, count, stride) ∈ blockMap) (hn : n < count)
    (ho : o < stride) (hoff : off = base + stride * n + o) : regAt off = some (b, n, o) := by
  rw [hoff]
  exact findSome_inst hn ho blockMap blockMap_ascends hb

theorem writeReg_glb {off o : Nat} (t : State) (v : Nat) (ho : o < 0x10000) (hoff : off = o) : writeReg t off v = writeGlb t o v := by
  have h : regAt off = some (.glb, 0, o) := regAt_inside (base := 0) (count := 1) (by decide) (by decide) ho (by omega)
  delta writeReg
  rw [h]

theorem writeReg_spr {off o : Nat} (t : State) (v : Nat) (ho : o < 0x10000) (hoff : off = 0x60000 + o) :
    writeReg t off v = writeSpr t o v := by
  have h : regAt off = some (.spr, 0, o) := regAt_inside (base := 0x60000) (count := 1) (by decide) (by decide) ho (by omega)
  delta writeReg
  rw [h]

theorem writeReg_isx {off o : Nat} (t : State) (v : Nat) (ho : o < 0x10000) (hoff : off = 0x70000 + o) :
    writeReg t off v = writeIsx t o v := by
  have h : regAt off = some (.isx, 0, o) := regAt_inside (base := 0x70000) (count := 1) (by decide) (by decide) ho (by omega)
  delta writeReg
  rw [h]

theorem writeReg_ful {off n o : Nat} (t : State) (v : Nat) (hn : n < 2) (ho : o < 0x100000) (hoff : off = 0x400000 + 0x100000 * n + o) :
    writeReg t off v = writeFul t n o v := by
  have h : regAt off = some (.ful, n, o) := regAt_inside (by decide) hn ho hoff
  delta writeReg
  rw [h]

theorem writeReg_lnk {off n o : Nat} (t : State) (v : Nat) (hn : n < 48) (ho : o < 0x1000) (hoff : off = 0x600000 + 0x1000 * n + o) :
    writeReg t off v = writeLnk t n o v := by
  have h : regAt off = some (.lnk, n, o) := regAt_inside (by decide) hn ho hoff
  delta writeReg
  rw [h]

theorem writeReg_eth {off n o : Nat} (t : State) (v : Nat) (hn : n < 2) (ho : o < 0x10000) (hoff : off = 0x300000 + 0x10000 * n + o) :
    writeReg t off v = writeEth t n o v := by
  have h : regAt off = some (.eth, n, o) := regAt_inside (by decide) hn ho hoff
  delta writeReg
  rw [h]

/-! ### States and ranges of a row -/

theorem inStates_mem {s : State} {l : List DevState} (f : WordWrite) (h : s.glb.state ∈ l) : inStates s l f = f :=
  if_pos (by simpa using h)

theorem inRange_ok {ok : Bool} (s : State) (f : WordWrite) (h : ok = true) : inRange s ok f = f := if_pos h

theorem mem_inIR {d : DevState} (h : d = .isolated ∨ d = .ready) : d ∈ inIR := by simpa [inIR] using h

/-! ### A host write that the store takes -/

/-- The state in which a host write has joined the queue, and has started where none was in flight. -/
def asked (t : State) (ix v : Nat) (hook : PstHook) : State :=
  startWrite { t with pst := { t.pst with
    nextTicket := t.pst.nextTicket + 1
    queue := t.pst.queue ++ [{ index := ix, value := v, own := false, ticket := t.pst.nextTicket, hook := hook }] } }

theorem storing_eq (t : State) (e : Env) (ix v : Nat) (hook : PstHook) :
    storing t e ix v hook = replyAfter (asked t ix v hook) e [(t.pst.nextTicket, 0)] 0 (beBytes 2 1) := rfl

theorem hostWrite_takes {ix v : Nat} {s : State} (h : StoreTakes ix v s) (hook : PstHook) :
    hostWrite s ix v hook = (asked s ix v hook, .queued s.pst.nextTicket) := by
  obtain ⟨halive, hnew, hfresh, hsupply, hroom⟩ := h
  delta hostWrite
  rw [if_neg (by simp [halive]), if_neg hnew, if_neg (Nat.not_le.mpr hfresh), if_neg (by simp [hsupply]), if_neg (Nat.not_le.mpr hroom)]
  rfl

theorem writeWp_takes {ix v : Nat} {s : State} (h : StoreTakes ix v s) (hook : PstHook) :
    writeWp s ix v hook = { next := asked s ix v hook, status := stOk, ticket := some s.pst.nextTicket } := by
  delta writeWp
  rw [hostWrite_takes h]

/-- Whether the store takes a write does not depend on what acceptance changes. -/
theorem StoreTakes.beside {ix v : Nat} {s t : State} (hb : Beside s t) (h : StoreTakes ix v s) : StoreTakes ix v t := by
  rw [hb]
  exact ⟨h.alive, h.new, h.fresh, h.supply, h.room⟩

/-- The row of a WP register whose accepted word asks the store for a write that it takes. -/
theorem regRow_stores {off ix value : Nat} {v : W32} {e : Env} {s : State} {ok : Bool} {hook : PstHook} (h : WordAccepted off v e s)
    (hoff : off < 0x3000000) (hok : ok = true) (hs : StoreTakes ix value s)
    (hw : writeReg (served s e) off v.toNat = writeWp (served s e) ix value hook) :
    regRow ok e off v s = .next (storing (served s e) e ix value hook) := by
  rw [regRow_accepts h hoff ok hok, hw, writeWp_takes (hs.beside (beside_served s e)), storing_eq]
  rfl

/-! ### What acceptance leaves of the registers' conditions -/

theorem served_glb (s : State) (e : Env) : (served s e).glb = s.glb := by rw [beside_served s e]

theorem served_fulIdle (s : State) (e : Env) : fulIdle (served s e) = fulIdle s := by rw [beside_served s e]; rfl

theorem served_planLports (s : State) (e : Env) : planLports (served s e) = planLports s := by rw [beside_served s e]; rfl

theorem served_pstValue (s : State) (e : Env) (ix : Nat) : pstValue (served s e) ix = pstValue s ix := by rw [beside_served s e]; rfl

theorem served_pstLatest (s : State) (e : Env) (ix : Nat) : pstLatest (served s e) ix = pstLatest s ix := by
  rw [beside_served s e]; rfl

theorem served_isxPort (s : State) (e : Env) : (served s e).isx.port = s.isx.port := by rw [beside_served s e]

/-! ### What each WP register asks of the store (R450) -/

theorem writeGlb_commitMark {t : State} (v : Nat) (h : t.glb.state = .isolated ∨ t.glb.state = .ready) :
    writeGlb t 0xA0 v = writeWp t ixCommitMark v .none := inStates_mem _ (mem_inIR h)

theorem writeSpr_window {v : Nat} (t : State) (h : 0x10000 ≤ v) : writeSpr t 0x00 v = writeWp t ixWindow v .none :=
  inRange_ok _ _ (decide_eq_true h)

theorem writeSpr_events {v : Nat} (t : State) (h : 2 ≤ v % 256) : writeSpr t 0x04 v = writeWp t ixEvents (v % 256) .none :=
  inRange_ok _ _ (decide_eq_true h)

theorem writeLnk_miswire {t : State} (v : Nat) (h : t.glb.state = .isolated ∨ t.glb.state = .ready) :
    writeLnk t 0 0xF00 v = writeWp t ixMiswire (v % 2) .none := inStates_mem _ (mem_inIR h)

theorem writeFul_port {t : State} {v : Nat} (hidle : fulIdle t = true) (h0 : v % 65536 ≠ 0) (h1 : v % 65536 ≠ pstLatest t ixIsxPort)
    (h2 : v % 65536 ≠ t.isx.port) : writeFul t 0 0x00 v = writeWp t ixFulPort (v % 65536) .none := by
  delta writeFul
  simp [hidle, inRange_ok, h0, h1, h2]

theorem writeFul_roundBase {t : State} (v : Nat) (hidle : fulIdle t = true) :
    writeFul t 0 0x04 v = writeWp t ixRoundBase v .none := by
  delta writeFul
  simp [hidle]

theorem writeIsx_port {t : State} {v : Nat} (h0 : v % 65536 ≠ 0) (h1 : v % 65536 ≠ pstLatest t ixFulPort)
    (h2 : v % 65536 ≠ pstValue t ixFulPort) (h3 : v % 65536 ∉ planLports t) :
    writeIsx t 0x00 v = writeWp t ixIsxPort (v % 65536) .none :=
  inRange_ok _ _ (by simp [h0, h1, h2, h3])

theorem writeEth_ipv4 {v : Nat} (t : State) (p : Nat) (h : ipv4Ok v = true) : writeEth t p 0x0C v = writeWp t (ixEth p 0) v .none :=
  inRange_ok _ _ h

theorem writeEth_ipv6 {v w : Nat} (t : State) (p : Nat) (hw : w < 4) (h : w ≠ 3 ∨ v / 2 ^ 24 ≠ 255) :
    writeEth t p (0x10 + 4 * w) v = writeWp t (ixEth p (1 + w)) v .none := by
  have hword : (0x10 + 4 * w - 0x10) / 4 = w := by omega
  delta writeEth
  rw [if_neg (by omega), if_pos (by omega), hword]
  exact inRange_ok _ _ (by simpa using h)

/-- TAG (bits 11:0) and EN (bit 15) are stored; an enabled tag is neither 0 nor 0xFFF (R412). -/
theorem writeEth_vlan {v : Nat} (t : State) (p : Nat) (h : bit v 15 = true → v % 4096 ≠ 0 ∧ v % 4096 ≠ 0xFFF) :
    writeEth t p 0x20 v = writeWp t (ixEth p 5) (v % 4096 + b2n (bit v 15) * 2 ^ 15) .none := by
  have htag : (v % 2 ^ 12 + b2n (bit v 15) * 2 ^ 15) % 2 ^ 12 = v % 4096 := by omega
  refine inRange_ok _ _ ?_
  rw [htag]
  cases hen : bit v 15 with
  | false => rfl
  | true => simpa using h hen

/-- The word waits in the store: the next hop is taken as its write completes, not at once. -/
theorem writeEth_nextHopLo {t : State} {p v : Nat} (h : StoreTakes (ixEth p 6) v t) :
    writeEth t p 0x24 v = writeWp t (ixEth p 6) v (.nextHop p) := by
  delta writeEth
  simp [writeWp_takes h]

theorem writeEth_nextHopHi {v : Nat} (t : State) (p : Nat) (h : bit v 8 = false) :
    writeEth t p 0x28 v = writeWp t (ixEth p 7) (v % 65536) .none :=
  inRange_ok _ _ (by simp [h])

/-! ### The rows -/

/-- Settles O16: each row's word reaches its register (`writeReg_…`), which asks the store for one write of its index
(`write…_…`), and the store takes it (`regRow_stores`). -/
theorem storedRegisterRowsComplete : Obligations.StoredRegisterRowsComplete := by
  intro e v s
  have glb := served_glb s e
  have idle := served_fulIdle s e
  have latest := served_pstLatest s e
  refine ⟨?commitMark, ?window, ?events, ?miswire, ?fulPort, ?roundBase, ?isxPort, ?ipv4, ?ipv6, ?vlan, ?nextHopLo, ?nextHopHi⟩
  case commitMark =>
    intro h hst hs
    exact regRow_stores h (by decide) (by simp [h.port]) hs
      ((writeReg_glb _ _ (by decide) rfl).trans (writeGlb_commitMark _ (by rwa [glb])))
  case window =>
    intro h hv hs
    exact regRow_stores h (by decide) (by simp [h.port]) hs ((writeReg_spr _ _ (by decide) rfl).trans (writeSpr_window _ hv))
  case events =>
    intro h hv hs
    exact regRow_stores h (by decide) (by simp [h.port]) hs ((writeReg_spr _ _ (by decide) rfl).trans (writeSpr_events _ hv))
  case miswire =>
    intro h hst hs
    exact regRow_stores h (by decide) (by simp [h.port]) hs
      ((writeReg_lnk _ _ (by decide) (by decide) rfl).trans (writeLnk_miswire _ (by rwa [glb])))
  case fulPort =>
    intro h hidle h0 h1 h2 hs
    exact regRow_stores h (by decide) (by simp [h.port]) hs ((writeReg_ful _ _ (by decide) (by decide) rfl).trans
      (writeFul_port (by rwa [idle]) h0 (by rwa [latest]) (by rwa [served_isxPort])))
  case roundBase =>
    intro h hidle hs
    exact regRow_stores h (by decide) (by simp [h.port]) hs
      ((writeReg_ful _ _ (by decide) (by decide) rfl).trans (writeFul_roundBase _ (by rwa [idle])))
  case isxPort =>
    intro h h0 h1 h2 h3 hs
    exact regRow_stores h (by decide) (by simp [h.port]) hs ((writeReg_isx _ _ (by decide) rfl).trans
      (writeIsx_port h0 (by rwa [latest]) (by rwa [served_pstValue]) (by rwa [served_planLports])))
  case ipv4 =>
    intro n hn h hv hs
    exact regRow_stores h (by omega) (by simp [h.port, hn]) hs
      ((writeReg_eth _ _ hn (by decide) (by omega)).trans (writeEth_ipv4 _ n hv))
  case ipv6 =>
    intro n hn w hw h hv hs
    exact regRow_stores h (by omega) (by simp [h.port, hn, hw]) hs
      ((writeReg_eth _ _ hn (by omega) (by omega)).trans (writeEth_ipv6 _ n hw hv))
  case vlan =>
    intro n hn h hv hs
    exact regRow_stores h (by omega) (by simp [h.port, hn]) hs
      ((writeReg_eth _ _ hn (by decide) (by omega)).trans (writeEth_vlan _ n hv))
  case nextHopLo =>
    intro n hn h hs
    exact regRow_stores h (by omega) (by simp [h.port, hn]) hs
      ((writeReg_eth _ _ hn (by decide) (by omega)).trans (writeEth_nextHopLo (hs.beside (beside_served s e))))
  case nextHopHi =>
    intro n hn h hv hs
    exact regRow_stores h (by omega) (by simp [h.port, hn]) hs
      ((writeReg_eth _ _ hn (by decide) (by omega)).trans (writeEth_nextHopHi _ n hv))

end Sys2Proof.Safety
end

section
/-!
SUPPORT. Writes of RW registers of a unit that comes in numbers (R106, R128, R224, R235, R412; O15, O17): the block that holds
each register, and what a word that is written at once leaves.
-/
namespace Sys2Proof.Safety

open Sys2Proof.Machine

/-! ### The blocks of the units (R208) -/

theorem writeReg_core {off n o : Nat} (t : State) (v : Nat) (hn : n < 480) (ho : o < 0x1000) (hoff : off = 0x2000000 + 0x1000 * n + o) :
    writeReg t off v = writeCore t n o v := by
  have h : regAt off = some (.core, n, o) := regAt_inside (by decide) hn ho hoff
  delta writeReg
  rw [h]

theorem writeReg_arr {off n o : Nat} (t : State) (v : Nat) (hn : n < 480) (ho : o < 0x1000) (hoff : off = 0x2400000 + 0x1000 * n + o) :
    writeReg t off v = writeArr t n o v := by
  have h : regAt off = some (.arr, n, o) := regAt_inside (by decide) hn ho hoff
  delta writeReg
  rw [h]

theorem writeReg_upd {off n o : Nat} (t : State) (v : Nat) (hn : n < 20) (ho : o < 0x10000) (hoff : off = 0xA00000 + 0x10000 * n + o) :
    writeReg t off v = writeUpd t n o v := by
  have h : regAt off = some (.upd, n, o) := regAt_inside (by decide) hn ho hoff
  delta writeReg
  rw [h]

theorem writeReg_stk {off n o : Nat} (t : State) (v : Nat) (hn : n < 20) (ho : o < 0x10000) (hoff : off = 0x800000 + 0x10000 * n + o) :
    writeReg t off v = writeStk t n o v := by
  have h : regAt off = some (.stk, n, o) := regAt_inside (by decide) hn ho hoff
  delta writeReg
  rw [h]

/-! ### What each register takes -/

theorem writeCore_waitLimit {t : State} (c v : Nat) (h : t.glb.state = .isolated ∨ t.glb.state = .ready) :
    writeCore t c 0x08 v = wrote (t.modCore c fun x => { x with waitLimit := v }) := inStates_mem _ (mem_inIR h)

theorem inStates_refused {s : State} {l : List DevState} (f : WordWrite) (h : s.glb.state ∉ l) :
    inStates s l f = unwritten s stNotInState := if_neg (by simpa using h)

/-- The limit is not written in any other state, and the write says so (R106). -/
theorem writeCore_waitLimit_refused {t : State} (c v : Nat) (hi : t.glb.state ≠ .isolated) (hr : t.glb.state ≠ .ready) :
    writeCore t c 0x08 v = unwritten t stNotInState := inStates_refused _ (by simp [inIR, hi, hr])

theorem writeArr_epilogue {t : State} {set reg : Nat} (c : Nat) (v : W32) (hset : set < 8) (hreg : reg < 4)
    (h : t.glb.state = .isolated ∨ t.glb.state = .ready) :
    writeArr t c (0x100 + 16 * set + 4 * reg) v.toNat =
      wrote (t.modCore c fun x => { x with epi := tput x.epi (4 * set + reg) (v &&& epiMask reg) }) := by
  have hkey : (0x100 + 16 * set + 4 * reg - 0x100) / 4 = 4 * set + reg := by omega
  have hmask : (4 * set + reg) % 4 = reg := by omega
  delta writeArr
  rw [if_pos (by omega), hkey, inStates_mem _ (mem_inIR h), hmask, BitVec.ofNat_toNat, BitVec.setWidth_eq]

theorem writeUpd_hyperparameter {t : State} {set field : Nat} (n : Nat) (v : W32) (hset : set < 8) (hfield : field < 7)
    (h : t.glb.state = .isolated ∨ t.glb.state = .ready) :
    writeUpd t n (0x100 + 64 * set + 4 * field) v.toNat = wrote (t.modUnit n fun u => u.setHp set field v) := by
  have hs : (0x100 + 64 * set + 4 * field - 0x100) / 64 = set := by omega
  have hf : (0x100 + 64 * set + 4 * field - 0x100) % 64 / 4 = field := by omega
  delta writeUpd
  rw [if_pos (by omega), inStates_mem _ (mem_inIR h), hs, hf, BitVec.ofNat_toNat, BitVec.setWidth_eq]

theorem writeStk_scrub {v : Nat} (t : State) (n : Nat) (h : v % 65536 ≠ 0) :
    writeStk t n 0x14 v = wrote (t.modStack n fun k => { k with
      scrubEn := bit v 31, scrubPeriod := v % 65536, fastLate := k.fastLate && bit v 31, denseLate := k.denseLate && bit v 31 }) :=
  inRange_ok _ _ (by simpa using h)

theorem writeEth_pfc (t : State) (p : Nat) (v : W32) :
    writeEth t p 0x30 v.toNat = wrote (t.modEther p fun x => { x with pfc := v &&& 0x000F7777 }) := by
  have h : writeEth t p 0x30 v.toNat = wrote (t.modEther p fun x => { x with pfc := BitVec.ofNat 32 v.toNat &&& 0x000F7777 }) := rfl
  rw [h, BitVec.ofNat_toNat, BitVec.setWidth_eq]

/-! ### The rows -/

/-- A reply that waits for no write of the store is sent at once. -/
theorem replyAfter_nothing (t : State) (e : Env) (status : Nat) (params : List Byte) :
    replyAfter t e [] status params = reply t e status params := rfl

/-- The row of a register whose accepted word is written at once. -/
theorem regRow_wrote {off : Nat} {v : W32} {e : Env} {s t : State} {ok : Bool} (h : WordAccepted off v e s) (hoff : off < 0x3000000)
    (hok : ok = true) (hw : writeReg (served s e) off v.toNat = wrote t) : regRow ok e off v s = .next (wordDone t e) := by
  rw [regRow_accepts h hoff ok hok, hw]
  simp only [wrote, stOk, if_true, Option.toList_none, List.map_nil, replyAfter_nothing, wordDone]

/-- Settles O15: each row's word reaches the block of its unit (`writeReg_…`), which takes it in the row's states and range. -/
theorem unitRegisterRowsComplete : Obligations.UnitRegisterRowsComplete := by
  intro e v s
  have glb := served_glb s e
  refine ⟨?waitLimit, ?epilogue, ?hyperparameter, ?scrub, ?dscp, ?pfc⟩
  case waitLimit =>
    intro c hc h hst
    exact regRow_wrote h (by omega) (by simp [h.port, hc])
      ((writeReg_core _ _ hc (by decide) (by omega)).trans (writeCore_waitLimit c _ (by rwa [glb])))
  case epilogue =>
    intro c hc set hset reg hreg h hst
    exact regRow_wrote h (by omega) (by simp [h.port, hc, hset, hreg])
      ((writeReg_arr _ _ hc (by omega) (by omega)).trans (writeArr_epilogue c v hset hreg (by rwa [glb])))
  case hyperparameter =>
    intro n hn set hset field hfield h hst
    exact regRow_wrote h (by omega) (by simp [h.port, hn, hset, hfield])
      ((writeReg_upd _ _ hn (by omega) (by omega)).trans (writeUpd_hyperparameter n v hset hfield (by rwa [glb])))
  case scrub =>
    intro n hn h hv
    exact regRow_wrote h (by omega) (by simp [h.port, hn])
      ((writeReg_stk _ _ hn (by decide) (by omega)).trans (writeStk_scrub _ n hv))
  case dscp =>
    intro n hn h
    exact regRow_wrote h (by omega) (by simp [h.port, hn]) (writeReg_eth (o := 0x2C) _ _ hn (by decide) (by omega))
  case pfc =>
    intro n hn h
    exact regRow_wrote h (by omega) (by simp [h.port, hn])
      ((writeReg_eth _ _ hn (by decide) (by omega)).trans (writeEth_pfc _ n v))

/-- Settles O17: the word of CORE_WAIT_LIMIT reaches its core, and the state of the device alone decides whether it is written. -/
theorem waitLimitWriteStates : Obligations.WaitLimitWriteStates := by
  intro c v s hc
  rw [writeReg_core (o := 0x08) s v hc (by decide) (by omega)]
  refine ⟨fun hst => ?_, fun hi hr => ?_⟩
  · rw [writeCore_waitLimit c v hst]
    exact ⟨rfl, rfl⟩
  · rw [writeCore_waitLimit_refused c v hi hr]
    exact ⟨rfl, rfl⟩

end Sys2Proof.Safety
end

section
/-!
SUPPORT. The rows of the core ops (R78, R84 to R87, R144 to R158; O32, O33, O35 to O37). A row of a family is its form (`vectorOp`,
`slotOp`, `loadOp`, `controlOp`) with the row's opcode, latency and effect; the form completes once for the family, and each row cites
that.
-/
namespace Sys2Proof.Safety

open Sys2Proof.Machine

/-! ### Vector slots -/

/-- Every op of the form `vectorOp` completes. -/
theorem vectorOp_completes {i : Nat → Nat → Instr} {op lat : Nat} {gated : Bool} {out : VIn → VOut}
    (hwf : ∀ c ve, wellFormed (i c ve) = decide (c < 480 ∧ ve < 2))
    (hrow : ∀ c ve s, exec (i c ve) s = guarded (i c ve) s (vectorOp c ve op lat gated out)) : VectorCompletes i op lat gated out := by
  intro c ve s r b hve hacts hgate
  have hpred : (!gated) = true ∨ predicated b (4 + ve) := by
    cases gated with
    | false => exact .inl rfl
    | true => exact .inr (hgate rfl)
  rw [hrow, guarded_next (by simp [hwf, hacts.core, hve])]
  exact congrArg _ (slotOp_acts hacts _ _ hpred)

/-- Settles O32: every row is `vectorOp` with its opcode, latency and function of the operands. -/
theorem vectorOpsComplete : Obligations.VectorOpsComplete := by
  unfold Obligations.VectorOpsComplete
  and_intros <;> exact vectorOp_completes (fun _ _ => rfl) (fun _ _ _ => rfl)

/-! ### Matrix slots -/

theorem matrixOp_completes {i : Nat → Nat → Instr} {op : Nat} {effect : Nat → Nat → State → Nat → Bun → State}
    (hwf : ∀ c a, wellFormed (i c a) = decide (c < 480 ∧ a < 4))
    (hrow : ∀ c a s, exec (i c a) s = guarded (i c a) s (slotOp c a op false (effect c a))) : MatrixCompletes i op effect := by
  intro c a s r b ha hacts hpred
  rw [hrow, guarded_next (by simp [hwf, hacts.core, ha]), slotOp_acts hacts _ _ (.inr hpred)]

/-- Settles O33: every row is `slotOp` with its opcode and its effect in one repeat. -/
theorem matrixOpsComplete : Obligations.MatrixOpsComplete := by
  unfold Obligations.MatrixOpsComplete
  and_intros <;> exact matrixOp_completes (fun _ _ => rfl) (fun _ _ _ => rfl)

/-! ### The load slot -/

/-- The load slot that acts launches its result, and has acted. -/
theorem loadOp_acts {c op lat weight : Nat} {s r : State} {b : Bun} {hz : Core → Nat → Nat → Bun → List Nat}
    {result : State → Core → Nat → Nat → Nat → Bun → Payload} (hacts : SlotActs s c 6 op r b) (hpred : predicated b 6) :
    loadOp c op hz (fun u x a w b => (lat, weight, result u x c a w b)) s =
      (let w := slotWord b.raw 6
       let x := r.core c
       let u := spoil r c (hazX x (bits w 16 12) ++ hz x (loadAddr x c w) w b)
       endSlot (launch u c lat weight (result u (u.core c) c (loadAddr x c w) w b)) c 6) :=
  slotOp_acts hacts _ _ (.inr hpred)

theorem loadOp_completes {i : Nat → Instr} {op lat weight : Nat} {hz : Core → Nat → Nat → Bun → List Nat}
    {result : State → Core → Nat → Nat → Nat → Bun → Payload} (hwf : ∀ c, wellFormed (i c) = decide (c < 480))
    (hrow : ∀ c s, exec (i c) s = guarded (i c) s (loadOp c op hz fun u x a w b => (lat, weight, result u x c a w b))) :
    LoadCompletes i op lat weight hz result := by
  intro c s r b hacts hpred
  rw [hrow, guarded_next (by simp [hwf, hacts.core]), loadOp_acts hacts hpred]

/-- Settles O35: every row is `loadOp` with its opcode, latency and result; FEEDV takes a ticket besides. -/
theorem loadOpsComplete : Obligations.LoadOpsComplete := by
  have feedv : ∀ (c : Nat) (s : State), exec (.ldFeedv c) s = guarded (.ldFeedv c) s fun s =>
      (loadOp c 8 (fun x _ w b => hazV x (512 * loadReg w b 512) 512)
        (fun u x _ w b => (6, 0, .feed (feedvBytes x c u.fresh w b))) s).ticket := fun _ _ => rfl
  refine ⟨?_, ?_, ?_, ?_, ?_, ?_, ?_, fun c s r b hacts hpred => ?feedv⟩
  case feedv =>
    rw [feedv, guarded_next (i := .ldFeedv c) (decide_eq_true hacts.core)]
    exact congrArg (fun t => Host.Outcome.next (State.ticket t))
      (loadOp_acts (result := fun u x c _ w b => .feed (feedvBytes x c u.fresh w b)) hacts hpred)
  all_goals exact loadOp_completes (fun _ => rfl) (fun _ _ => rfl)

/-! ### The control slot -/

theorem controlOp_completes {i : Nat → Instr} {op : Nat} {reads : Nat → List Nat}
    {effect : Nat → State → Core → Nat → State} (hwf : ∀ c, wellFormed (i c) = decide (c < 480))
    (hrow : ∀ c s, exec (i c) s = guarded (i c) s (controlOp c op reads fun u x w _ => effect c u x w)) :
    ControlCompletes i op reads effect := by
  intro c s r b hacts hpred
  rw [hrow, guarded_next (by simp [hwf, hacts.core])]
  exact congrArg _ (slotOp_acts hacts _ _ (.inr hpred))

/-- A comparison completes: it fills P(PD) with ones where the relation that it decides holds, and else with zeros. -/
theorem compareOp_completes {i : Nat → Instr} {op : Nat} {f : W64 → W64 → Bool} {R : W64 → W64 → Prop}
    [∀ x y, Decidable (R x y)] (hf : ∀ x y, f x y = decide (R x y)) (hwf : ∀ c, wellFormed (i c) = decide (c < 480))
    (hrow : ∀ c s, exec (i c) s = guarded (i c) s (compareOp c op f)) :
    ControlCompletes i op (fun w => [bits w 23 18, bits w 29 24]) fun c s x w =>
      launch s c 1 1 (.preg (bits w 70 67)
        (if R (readS x c (bits w 23 18)) (readS x c (bits w 29 24)) then BitVec.allOnes 512 else 0) (BitVec.allOnes 512)) := by
  refine controlOp_completes hwf fun c s => ?_
  rw [hrow]
  unfold compareOp
  simp only [hf, decide_eq_true_eq]
  rfl

/-- Settles O36: every row is `controlOp` with its opcode and its result; the comparisons decide equality and the signed and the
unsigned order. -/
theorem scalarOpsComplete : Obligations.ScalarOpsComplete := by
  unfold Obligations.ScalarOpsComplete
  refine ⟨?_, ?_, ?_, ?_, ?_, ?_, ?_, ?_, ?_, ?_, ?_, ?_, ?_, ?_, ?_, ?eq, ?lt, ?ltu⟩
  case eq => exact compareOp_completes (R := fun x y => x = y) (fun _ _ => rfl) (fun _ => rfl) (fun _ _ => rfl)
  case lt => exact compareOp_completes (R := fun x y => x.toInt < y.toInt) (fun _ _ => rfl) (fun _ => rfl) (fun _ _ => rfl)
  case ltu => exact compareOp_completes (R := fun x y => x.toNat < y.toNat) (fun _ _ => rfl) (fun _ => rfl) (fun _ _ => rfl)
  all_goals exact controlOp_completes (fun _ => rfl) (fun _ _ => rfl)

/-- TOKSET in a bundle within the timing rules adds the increments of its cycle to the value that it sets (R96). -/
theorem setToken_fits {s : State} {c tok v : Nat} (h : (s.core c).spoiled = false) (hv : v + arrivals (s.core c) tok ≤ 65535) :
    setToken s c (s.core c) tok v = (s.setCore c (writeT (s.core c) tok (v + arrivals (s.core c) tok))).ticket := by
  unfold setToken
  simp [h, hv, Nat.not_lt.mpr hv]

/-- Past 65,535 the counter stays there, and the core faults (R96). -/
theorem setToken_overflows {s : State} {c tok v : Nat} (h : (s.core c).spoiled = false) (hv : 65535 < v + arrivals (s.core c) tok) :
    setToken s c (s.core c) tok v = corePlanFault (s.setCore c (writeT (s.core c) tok 65535)).ticket c 3 (s.core c).pc tok := by
  unfold setToken
  simp [h, hv, Nat.min_eq_right (Nat.le_of_lt hv)]

/-- Settles O37: every row is `controlOp` with its opcode and its effect; what TOKSET leaves is said by `setToken_fits` and
`setToken_overflows`. -/
theorem controlOpsComplete : Obligations.ControlOpsComplete := by
  unfold Obligations.ControlOpsComplete
  refine ⟨?_, ?_, ?_, ?_, ?_, ?_, ?_, ?_, ?_, ?_, fun c tok v s h => ⟨setToken_fits h, setToken_overflows h⟩, ?_⟩
  all_goals exact controlOp_completes (fun _ => rfl) (fun _ _ => rfl)

end Sys2Proof.Safety
end

section
/-!
SUPPORT. INIT (R115; O34): accumulator entries after one of them is put, and the core that INIT leaves.
-/
namespace Sys2Proof.Safety

open Sys2Proof.Machine

/-! ### Accumulator entries -/

@[simp] theorem array_putEntry_same (x : Core) (a e : Nat) (v : AccEntry) :
    (putEntry x a e v).array a = { x.array a with acc := tput (x.array a).acc e v } := by
  simp [putEntry, Core.array, Core.modArray, tmod]

theorem array_putEntry_other {a a' : Nat} (x : Core) (e : Nat) (v : AccEntry) (h : a' ≠ a) :
    (putEntry x a e v).array a' = x.array a' := by
  simp [putEntry, Core.array, Core.modArray, tmod, h]

@[simp] theorem rf_putEntry (x : Core) (a e : Nat) (v : AccEntry) : (putEntry x a e v).rf = x.rf := rfl

@[simp] theorem entryOf_putEntry_same (x : Core) (c a e : Nat) (v : AccEntry) : entryOf (putEntry x a e v) c a e = v := by
  simp [entryOf, tfind_tput_same]

theorem entryOf_putEntry_other {e e' : Nat} (x : Core) (c a : Nat) (v : AccEntry) (h : e' ≠ e) :
    entryOf (putEntry x a e v) c a e' = entryOf x c a e' := by
  unfold entryOf
  rw [array_putEntry_same, tfind_tput_other _ _ _ _ h]
  rfl

/-! ### INIT -/

/-- A core breaks no timing rule where its bundle in progress, if there is one, has broken none. -/
theorem spoiled_eq_false {x : Core} (h : ∀ k, x.bun = some k → k.spoiled = false) : x.spoiled = false := by
  unfold Core.spoiled
  cases hb : x.bun with
  | none => rfl
  | some k => exact h k hb

/-- The entry that INIT names in a repeat. -/
def initEntry (w : Nat) (b : Bun) : Nat := (bits w 17 12 + (if bit w 18 then b.rep else 0)) % 64

/-- What INIT leaves in it. -/
def initValue (x : Core) (c a w : Nat) (b : Bun) : AccEntry :=
  { vals := List.replicate 32 (identity (bits w 80 78)), cls := bits w 80 78, empty := true
    ready := Nat.max (entryOf x c a (initEntry w b)).ready (x.cyc + 4), src := x.issued }

/-- INIT that loads no weight part, in a bundle within the timing rules, puts its entry and does nothing else. -/
theorem initStep_eq {c a w : Nat} {s : State} {b : Bun} (hload : loadPart s c a w b = s) (hrules : (s.core c).spoiled = false) :
    initStep c a s w b = s.setCore c (putEntry (s.core c) a (initEntry w b) (initValue (s.core c) c a w b)) := by
  unfold initStep
  rw [hload]
  simp only [hrules, Bool.false_eq_true, if_false]
  rfl

/-- Settles O34: INIT puts one entry of one array of its core (`initStep_eq`), and the laws of `putEntry` and `setCore` say what that
leaves. -/
theorem initSetsIdentities : Obligations.InitSetsIdentities := by
  intro c a s w b _ _ hload hrules _ e t
  have ht : t = s.setCore c (putEntry (s.core c) a e (initValue (s.core c) c a w b)) := initStep_eq hload (spoiled_eq_false hrules)
  have hcore : t.core c = putEntry (s.core c) a e (initValue (s.core c) c a w b) := by rw [ht, State.core_setCore]
  have hentry : entryOf (t.core c) c a e = initValue (s.core c) c a w b := by rw [hcore, entryOf_putEntry_same]
  refine ⟨fun j hj => ?values, ?cls, ?empty, fun e' he => ?entries, fun a' ha => ?arrays, ?registers, fun k hk => ?cores, ?mem, ?glb⟩
  case values =>
    rw [hentry]
    exact List.getElem?_replicate_of_lt hj
  case cls => rw [hentry]; rfl
  case empty => rw [hentry]; rfl
  case entries => rw [hcore, entryOf_putEntry_other _ _ _ _ he]
  case arrays => rw [hcore, array_putEntry_other _ _ _ ha]
  case registers => rw [hcore, rf_putEntry]
  case cores => rw [ht, State.core_setCore_other _ _ _ _ hk]
  case mem => rw [ht, State.setCore_mem]
  case glb => rw [ht, State.setCore_glb]

end Sys2Proof.Safety
end

section
/-!
SUPPORT. Waits, NOP, tokens and chain records (R78, R91, R92, R96, R97, R124, R168; O38): what a wait that is met consumes, what an
increment adds, and where a record that arrives is held.
-/
namespace Sys2Proof.Safety

open Sys2Proof.Machine

/-! ### Token counters, and a core that is set twice -/

/-- Of two values put under one key the second stays. -/
theorem tput_tput {α : Type} (t : Tab α) (k : Nat) (v w : α) : tput (tput t k v) k w = tput t k w := by
  induction t with
  | nil => simp [tput]
  | cons e r ih =>
    obtain ⟨j, u⟩ := e
    by_cases hlt : k < j
    · simp [tput, hlt]
    · by_cases heq : k = j
      · simp [tput, heq]
      · simp [tput, hlt, heq, ih]

theorem setCore_modCore (s : State) (c : Nat) (f : Core → Core) (y : Core) : (s.modCore c f).setCore c y = s.setCore c y := by
  simp [State.setCore, State.modCore, tput_tput]

@[simp] theorem readT_writeT_same (x : Core) (tok v : Nat) : readT (writeT x tok v) tok = v := tget_tput_same _ _ _ _

theorem readT_writeT_other {tok k : Nat} (x : Core) (v : Nat) (h : k ≠ tok) : readT (writeT x tok v) k = readT x k :=
  tget_tput_other _ _ _ _ _ h

/-! ### WAIT_TOKEN (R92) -/

/-- The bundle at the PC of a core that may issue names a wait that has not been made. -/
def AtWait (s : State) (c : Nat) : Prop :=
  coreRuns s c = true ∧ (s.core c).bun = none ∧ s.glb.state ≠ .quiesced ∧ mustWait (s.core c) (fetch s c) = true

/-- BPRED of the bundle at the PC is on (R91). -/
def bundleOn (s : State) (c : Nat) : Bool := (readP (s.core c) c (bpredOf (fetch s c))).getLsbD 0

/-- The state in which the count of the wait at the PC is consumed. -/
def consumed (s : State) (c : Nat) : State := s.setCore c (takeCount (s.core c) (fetch s c))

theorem waitStep_short {s : State} {c : Nat} (h : AtWait s c)
    (hshort : readT (s.core c) (waitToken (fetch s c)) < waitCount (fetch s c)) (hw : (s.core c).waiting = none) :
    waitStep c s = s.setCore c { s.core c with waiting := some s.now } := by
  obtain ⟨hruns, hidle, hlive, hwait⟩ := h
  simp [waitStep, hruns, hidle, hlive, hwait, hshort, hw]

/-- What a wait whose count is there comes to, by what its bundle comes to: a bundle that is held or faults consumes nothing. -/
def waitIssue (s : State) (c : Nat) : Issue → State
  | .stay => s.setCore c { s.core c with waiting := none }
  | .faulted r => r
  | .ready _ => beginBundle (consumed s c) c (fetch s c)

theorem waitStep_reached {s : State} {c : Nat} (h : AtWait s c)
    (hn : waitCount (fetch s c) ≤ readT (s.core c) (waitToken (fetch s c))) :
    waitStep c s = if bundleOn s c = false then skipBundle (consumed s c) c else waitIssue s c (tryIssue s c (fetch s c)) := by
  obtain ⟨hruns, hidle, hlive, hwait⟩ := h
  have hgo : ¬ (!coreRuns s c || (s.core c).bun.isSome || s.glb.state == .quiesced) = true := by simp [hruns, hidle, hlive]
  have hmust : ¬ (!mustWait (s.core c) (fetch s c)) = true := by simp [hwait]
  unfold waitStep
  simp only [if_neg hgo, if_neg hmust, if_neg (Nat.not_lt.mpr hn)]
  delta bundleOn
  split <;> rfl

theorem waitStep_off {s : State} {c : Nat} (h : AtWait s c)
    (hn : waitCount (fetch s c) ≤ readT (s.core c) (waitToken (fetch s c))) (hp : bundleOn s c = false) :
    waitStep c s = skipBundle (consumed s c) c := by
  rw [waitStep_reached h hn, if_pos hp]

theorem waitStep_on {s : State} {c : Nat} (h : AtWait s c)
    (hn : waitCount (fetch s c) ≤ readT (s.core c) (waitToken (fetch s c))) (hp : bundleOn s c = true) :
    waitStep c s = waitIssue s c (tryIssue s c (fetch s c)) := by
  rw [waitStep_reached h hn, if_neg (by simp [hp])]

theorem exec_waitToken {c : Nat} (s : State) (hc : c < 480) : exec (.waitToken c) s = .next (waitStep c s) :=
  guarded_next (i := .waitToken c) (decide_eq_true hc)

/-! ### NOP (R78, R91) -/

/-- A bundle that issues has its BPRED on. -/
theorem bundleOn_of_ready {s r : State} {c : Nat} (h : issue s c = .ready r) (hb : (s.core c).bun = none) : bundleOn s c = true := by
  cases hoff : bundleOn s c with
  | true => rfl
  | false =>
    have hstay : tryIssue s c (fetch s c) = .stay := if_pos hoff
    unfold issue at h
    simp only [hb, hstay, Option.isSome_none, Bool.false_eq_true, if_false, ite_self] at h
    cases h

/-- The NOP of a slot that acts is an op with opcode 0: the bundle does not pass by itself. -/
theorem nopStep_acts {s r : State} {c slot : Nat} {b : Bun} (h : SlotActs s c slot 0 r b) (f : State → Nat → Bun → State) :
    nopStep c slot f s = slotOp c slot 0 false f s := by
  have hpass : ¬ (coreRuns s c && (s.core c).bun.isNone && s.glb.state != .quiesced && !mustWait (s.core c) (fetch s c) &&
      (readP (s.core c) c (bpredOf (fetch s c))).getLsbD 0 == false) = true := by
    intro hall
    simp only [Bool.and_eq_true, Option.isNone_iff_eq_none, beq_iff_eq] at hall
    have hon : (readP (s.core c) c (bpredOf (fetch s c))).getLsbD 0 = true := bundleOn_of_ready h.issued hall.1.1.1.2
    rw [hon] at hall
    cases hall.2
  have hslots : (slotsOf b).isEmpty = false := by
    rw [List.isEmpty_eq_false_iff]
    exact List.ne_nil_of_mem h.turn.1
  unfold nopStep
  rw [if_neg hpass]
  simp only [h.issued, h.bundle, hslots, Bool.false_eq_true, if_false]

theorem exec_slotNop {s r : State} {c slot : Nat} {b : Bun} (hslot : slot < 8) (h : SlotActs s c slot 0 r b) :
    exec (.slotNop c slot) s = .next (endSlot
      (if b.preds.testBit slot = true then (if slot < 4 then loadPart r c slot (slotWord b.raw slot) b else r) else r) c slot) := by
  have hrow : exec (.slotNop c slot) s = .next (nopStep c slot (fun s w b => if slot < 4 then loadPart s c slot w b else s) s) :=
    guarded_next (i := .slotNop c slot) (decide_eq_true ⟨h.core, hslot⟩)
  rw [hrow, nopStep_acts h]
  cases hp : b.preds.testBit slot with
  | true => rw [slotOp_acts h false _ (.inr hp), if_pos rfl]
  | false => rw [slotOp_off h _ hp, if_neg (by decide)]

/-! ### Increments (R96) -/

/-- `y` is the core `x` with 1 added to a counter, which a TOKRD of the same cycle may have noted. -/
def TokenAdded (x y : Core) (tok : Nat) : Prop :=
  y = writeT x tok (readT x tok + 1) ∨ y = noteArrival (writeT x tok (readT x tok + 1)) tok

/-- An increment that no TOKSET of its cycle keeps and that fits adds 1. -/
theorem addToken_adds {s : State} {c tok : Nat} (hc : c < 480) (ht : tok < 64) (hp : tokenPending (s.core c) 0x32 tok = false)
    (hv : readT (s.core c) tok < 65535) : ∃ y, addToken s c tok = s.setCore c y ∧ TokenAdded (s.core c) y tok := by
  have hcases := addToken_cases s c tok
  rw [Nat.mod_eq_of_lt ht] at hcases
  rcases hcases with ⟨hno, -⟩ | ⟨-, hpend, -⟩ | ⟨-, hfull, -⟩ | ⟨-, hadds⟩
  · omega
  · rw [hp] at hpend
    cases hpend
  · omega
  · exact hadds

theorem addToken_kept {s : State} {c tok : Nat} (hc : c < 480) (ht : tok < 64) (hp : tokenPending (s.core c) 0x32 tok = true) :
    addToken s c tok = s.setCore c (noteArrival (s.core c) tok) := by
  unfold addToken
  simp [Nat.not_le.mpr hc, Nat.mod_eq_of_lt ht, hp]

theorem TokenAdded.readT_same {x y : Core} {tok : Nat} (h : TokenAdded x y tok) : readT y tok = readT x tok + 1 := by
  rcases h with rfl | rfl <;> exact readT_writeT_same x tok _

theorem TokenAdded.readT_other {x y : Core} {tok k : Nat} (h : TokenAdded x y tok) (hk : k ≠ tok) : readT y k = readT x k := by
  rcases h with rfl | rfl <;> exact readT_writeT_other x _ hk

theorem TokenAdded.chain {x y : Core} {tok : Nat} (h : TokenAdded x y tok) : y.chain = x.chain := by
  rcases h with rfl | rfl <;> rfl

theorem exec_tokenArrival {c tok : Nat} {s : State} (hc : c < 480) (ht : tok < 64) (hr : s.inReset 1 = false) :
    exec (.tokenArrival c tok) s = .next (addToken s c tok) := by
  have hrow : exec (.tokenArrival c tok) s = .next (if s.inReset 1 then s else addToken s c tok) :=
    guarded_next (i := .tokenArrival c tok) (decide_eq_true ⟨hc, ht⟩)
  rw [hrow, hr, if_neg (by decide)]

/-! ### WAIT_TIMEOUT (R97) -/

theorem exec_waitTimeout {c since : Nat} {s : State} (hc : c < 480) (hruns : coreRuns s c = true) (hst : s.glb.state = .running)
    (hw : (s.core c).waiting = some since) (h0 : (s.core c).waitLimit ≠ 0) (hl : (s.core c).waitLimit < waitClock s - since) :
    exec (.waitTimeout c) s = .next (corePlanFault s c 4 (s.core c).pc (waitToken (fetch s c))) := by
  have hrow : exec (.waitTimeout c) s = execWaitTimeout c s := rfl
  unfold execWaitTimeout at hrow
  rw [hrow, guarded_next (i := .waitTimeout c) (decide_eq_true hc)]
  simp only [hw]
  rw [if_pos ⟨hruns, hst, h0, hl⟩]

/-! ### The chain buffer (R124, R125) -/

/-- How a record that comes to a slot is marked: 2 where it replaces an unused one, else 0. -/
def chainFlag (chain : Tab (Nat × List Byte)) (slot : Nat) : Nat :=
  ((tfind chain slot).map fun r => if r.1 = 1 then 0 else 2).getD 0

theorem chainFlag_ne_one (chain : Tab (Nat × List Byte)) (slot : Nat) : chainFlag chain slot ≠ 1 := by
  delta chainFlag
  cases tfind chain slot with
  | none => exact Nat.zero_ne_one
  | some r =>
    rw [Option.map_some, Option.getD_some]
    split <;> omega

theorem chainFlag_of_none {chain : Tab (Nat × List Byte)} {slot : Nat} (h : tfind chain slot = none) : chainFlag chain slot = 0 := by
  delta chainFlag
  rw [h]
  rfl

/-- A record in its slot of a chain buffer. -/
def chainPut (chain : Tab (Nat × List Byte)) (slot : Nat) (record : List Byte) : Tab (Nat × List Byte) :=
  tput chain slot (chainFlag chain slot, record)

theorem tfind_chainPut_same (chain : Tab (Nat × List Byte)) (slot : Nat) (record : List Byte) :
    tfind (chainPut chain slot record) slot = some (chainFlag chain slot, record) := tfind_tput_same _ _ _

theorem tfind_chainPut_other {slot k : Nat} (chain : Tab (Nat × List Byte)) (record : List Byte) (hk : k ≠ slot) :
    tfind (chainPut chain slot record) k = tfind chain k := tfind_tput_other _ _ _ _ hk

theorem putRecord_chain (x : Core) (slot : Nat) (record : List Byte) : (putRecord x slot record).chain = chainPut x.chain slot record := by
  delta putRecord chainPut chainFlag
  cases tfind x.chain slot <;> rfl

/-- The records that wait for the end of the cycle of the bundle in progress. -/
def recordsDue (x : Core) : List (Nat × List Byte) := (x.bun.map (·.records)).getD []

theorem foldl_putRecord_chain (l : List (Nat × List Byte)) (x : Core) :
    (l.foldl (fun x r => putRecord x r.1 r.2) x).chain = l.foldl (fun t r => chainPut t r.1 r.2) x.chain := by
  induction l generalizing x with
  | nil => rfl
  | cons r l ih => rw [List.foldl_cons, List.foldl_cons, ih, putRecord_chain]

/-- The chain buffer at the end of the cycle depends on the buffer and the records that wait, alone. -/
theorem landRecords_chain (x : Core) : (landRecords x).chain = (recordsDue x).foldl (fun t r => chainPut t r.1 r.2) x.chain := by
  delta landRecords recordsDue
  cases x.bun with
  | none => rfl
  | some b => exact foldl_putRecord_chain b.records x

/-- A record that arrives is the last to be written in its cycle. -/
theorem landRecords_takeRecord_chain (x : Core) (slot : Nat) (record : List Byte) :
    (landRecords (takeRecord x slot record)).chain = chainPut (landRecords x).chain slot record := by
  rcases takeRecord_cases x slot record with ⟨hb, h⟩ | ⟨b, hb, h⟩
  · rw [h, landRecords_idle x hb, landRecords_idle (putRecord x slot record) hb, putRecord_chain]
  · rw [h, landRecords_chain, landRecords_chain]
    delta recordsDue
    simp [hb]

/-- A record that reaches a core without a bundle in progress is written at once; else the buffer is left for the end of the cycle. -/
theorem takeRecord_chain_idle {x : Core} (h : x.bun = none) (slot : Nat) (record : List Byte) :
    (takeRecord x slot record).chain = chainPut x.chain slot record := by
  rw [← putRecord_chain]
  delta takeRecord
  rw [h]

theorem takeRecord_chain_busy {x : Core} {b : Bun} (h : x.bun = some b) (slot : Nat) (record : List Byte) :
    (takeRecord x slot record).chain = x.chain := by
  unfold takeRecord
  rw [h]

theorem takeRecord_chain_other {slot k : Nat} (x : Core) (record : List Byte) (hk : k ≠ slot) :
    tfind (takeRecord x slot record).chain k = tfind x.chain k := by
  cases h : x.bun with
  | none => rw [takeRecord_chain_idle h, tfind_chainPut_other _ _ hk]
  | some b => rw [takeRecord_chain_busy h]

/-- A record changes no counter, and not whether a control slot still has to act on one. -/
theorem takeRecord_tokens (x : Core) (slot : Nat) (record : List Byte) (op tok : Nat) :
    readT (takeRecord x slot record) tok = readT x tok ∧ tokenPending (takeRecord x slot record) op tok = tokenPending x op tok := by
  unfold takeRecord tokenPending
  cases h : x.bun with
  | none => simp [putRecord, readT, h]
  | some b => exact ⟨rfl, rfl⟩

theorem TokenAdded.recordsDue {x y : Core} {tok : Nat} (h : TokenAdded x y tok) : recordsDue y = recordsDue x := by
  rcases h with rfl | rfl
  · rfl
  · delta Safety.recordsDue noteArrival writeT
    simp [Function.comp_def]

theorem TokenAdded.landRecords_chain {x y : Core} {tok : Nat} (h : TokenAdded x y tok) :
    (landRecords y).chain = (landRecords x).chain := by
  rw [Safety.landRecords_chain, Safety.landRecords_chain, h.recordsDue, h.chain]

/-! ### CHAIN_RECORD (R124, R193) -/

/-- The entry of a receive map that CHAIN and HOP of a record name. -/
def receiveEntry (s : State) (g : Nat) (record : List Byte) : Option W64 :=
  (s.cluster g).recvMap.find? fun m =>
    bits m.toNat 15 0 == bits (leNat (record.take 8)) 15 0 && bits m.toNat 23 16 == bits (leNat (record.take 8)) 23 16

/-- The slot (ARRAY, ENTRY) of a record. -/
def recordSlot (record : List Byte) : Nat := 64 * bits (leNat (record.take 8)) 31 30 + bits (leNat (record.take 8)) 29 24

/-- A record that the receive map names comes to the core of its entry, and raises the counter of its entry. -/
theorem chainArrive_found {s : State} {g c : Nat} {record : List Byte} {m : W64} (hm : receiveEntry s g record = some m)
    (hc : 12 * g + bits m.toNat 27 24 = c) (hlt : c < 480) :
    chainArrive s g record = addToken (s.modCore c fun x => takeRecord x (recordSlot record) record) c (bits m.toNat 33 28) := by
  subst hc
  delta receiveEntry at hm
  delta chainArrive
  simp only [hm]
  rw [if_pos hlt]
  rfl

theorem exec_chainRecord {g : Nat} {s : State} (record : List Byte) (hg : g < 40) (hr : s.inReset 1 = false) :
    exec (.chainRecord g record) s = .next (chainArrive s g record) := by
  have hrow : exec (.chainRecord g record) s = .next (if s.inReset 1 then s else chainArrive s g record) :=
    guarded_next (i := .chainRecord g record) (decide_eq_true hg)
  rw [hrow, hr, if_neg (by decide)]

/-- A core that a record has reached: the record is taken, then 1 is added to a counter. -/
theorem exec_chainRecord_found {g c tok : Nat} {s : State} {record : List Byte} {m : W64} (hg : g < 40) (hr : s.inReset 1 = false)
    (hm : receiveEntry s g record = some m) (hc : 12 * g + bits m.toNat 27 24 = c) (hlt : c < 480) (htok : bits m.toNat 33 28 = tok)
    (hv : readT (s.core c) tok < 65535) (hp : tokenPending (s.core c) 0x32 tok = false) :
    ∃ y, exec (.chainRecord g record) s = .next (s.setCore c y) ∧
      TokenAdded (takeRecord (s.core c) (recordSlot record) record) y tok := by
  have ht : tok < 64 := by
    rw [← htok]
    exact Nat.mod_lt _ (by decide)
  have htokens := takeRecord_tokens (s.core c) (recordSlot record) record 0x32 tok
  have hcore : (s.modCore c fun x => takeRecord x (recordSlot record) record).core c =
      takeRecord (s.core c) (recordSlot record) record := State.core_setCore _ _ _
  obtain ⟨y, hy, hadd⟩ := addToken_adds (s := s.modCore c fun x => takeRecord x (recordSlot record) record) hlt ht
    (by rw [hcore, htokens.2, hp]) (by rwa [hcore, htokens.1])
  rw [hcore] at hadd
  refine ⟨y, ?_, hadd⟩
  rw [exec_chainRecord record hg hr, chainArrive_found hm hc hlt, htok, hy, setCore_modCore]

/-! ### Engines (R168) -/

theorem addEToken_adds {s : State} {g eng tok : Nat} (ht : tok < 8) (hv : tget 0 (s.engine g eng).tokens tok < 65535) :
    addEToken s g eng tok = s.modEngine g eng fun x => { x with tokens := tput x.tokens tok (tget 0 (s.engine g eng).tokens tok + 1) } := by
  unfold addEToken
  simp [Nat.mod_eq_of_lt ht, Nat.not_le.mpr hv]

theorem exec_engineTokenArrival {g eng tok : Nat} {s : State} (hg : g < 40) (he : eng < 10) (ht : tok < 8) (hr : s.inReset 1 = false) :
    exec (.engineTokenArrival g eng tok) s = .next (runNops g nopFuel (addEToken s g eng tok)) := by
  have hrow : exec (.engineTokenArrival g eng tok) s =
      .next (if s.inReset 1 then s else runNops g nopFuel (addEToken s g eng tok)) :=
    guarded_next (i := .engineTokenArrival g eng tok) (decide_eq_true ⟨hg, he, ht⟩)
  rw [hrow, hr, if_neg (by decide)]

theorem running_of_engineRuns {s : State} {g eng : Nat} (h : engineRuns s g eng = true) : s.glb.state = .running := by
  unfold engineRuns at h
  simp only [Bool.and_eq_true, beq_iff_eq] at h
  exact h.1.1.1

theorem exec_engineWaitTimeout {g eng off since : Nat} {s : State} (hg : g < 40) (he : eng < 10) (hruns : engineRuns s g eng = true)
    (hhead : headDesc s g eng = some off) (hw : (s.engine g eng).waiting = some since) (h0 : (s.core (12 * g)).waitLimit ≠ 0)
    (hl : (s.core (12 * g)).waitLimit < waitClock s - since) :
    exec (.engineWaitTimeout g eng) s = .next (enginePlanFault s g eng off 6) := by
  have hrow : exec (.engineWaitTimeout g eng) s = execEngineWaitTimeout g eng s := rfl
  unfold execEngineWaitTimeout at hrow
  rw [hrow, guarded_next (i := .engineWaitTimeout g eng) (decide_eq_true ⟨hg, he⟩)]
  simp only [hw, hhead, Option.getD_some]
  rw [if_pos ⟨hruns, running_of_engineRuns hruns, h0, hl⟩]

/-! ### The statement -/

/-- What a record that its receive map names leaves (R124, R125). -/
theorem chainRecord_completes {g : Nat} {record : List Byte} {s : State} {m : W64} (hg : g < 40) (hr : s.inReset 1 = false)
    (hm : receiveEntry s g record = some m) (hcore : bits m.toNat 27 24 < 12)
    (hv : readT (s.core (12 * g + bits m.toNat 27 24)) (bits m.toNat 33 28) < 65535)
    (hp : tokenPending (s.core (12 * g + bits m.toNat 27 24)) 0x32 (bits m.toNat 33 28) = false) :
    let c := 12 * g + bits m.toNat 27 24
    let slot := recordSlot record
    ∃ t flag, exec (.chainRecord g record) s = .next t ∧
      tfind (landRecords (t.core c)).chain slot = some (flag, record) ∧ flag ≠ 1 ∧
      ((s.core c).bun = none → tfind (t.core c).chain slot = some (flag, record)) ∧
      (∀ b, (s.core c).bun = some b → (t.core c).chain = (s.core c).chain) ∧
      (tfind (landRecords (s.core c)).chain slot = none → flag = 0) ∧
      readT (t.core c) (bits m.toNat 33 28) = readT (s.core c) (bits m.toNat 33 28) + 1 ∧
      (∀ k, k ≠ slot → tfind (t.core c).chain k = tfind (s.core c).chain k) ∧ (∀ k, k ≠ c → t.core k = s.core k) ∧
      t = { s with cores := t.cores } := by
  intro c slot
  obtain ⟨y, hexec, hadd⟩ := exec_chainRecord_found hg hr hm (c := c) rfl (by omega) rfl hv hp
  have hy : (s.setCore c y).core c = y := State.core_setCore _ _ _
  have hland : (landRecords y).chain = chainPut (landRecords (s.core c)).chain slot record := by
    rw [hadd.landRecords_chain, landRecords_takeRecord_chain]
  refine ⟨s.setCore c y, chainFlag (landRecords (s.core c)).chain slot, hexec, ?lands, chainFlag_ne_one _ _, fun hb => ?atOnce,
    fun b hb => ?waits, chainFlag_of_none, ?counter, fun k hk => ?slots, fun k hk => State.core_setCore_other _ _ _ _ hk, rfl⟩
  case lands => rw [hy, hland, tfind_chainPut_same]
  case atOnce => rw [hy, hadd.chain, takeRecord_chain_idle hb, landRecords_idle _ hb, tfind_chainPut_same]
  case waits => rw [hy, hadd.chain, takeRecord_chain_busy hb]
  case counter => rw [hy, hadd.readT_same, (takeRecord_tokens _ _ _ 0x32 _).1]
  case slots => rw [hy, hadd.chain, takeRecord_chain_other _ _ hk]

/-- Settles O38: what a wait comes to is `waitStep_short`, `waitStep_off` and `waitStep_on`; an increment adds 1 (`addToken_adds`); a
record is held as `chainRecord_completes` says. -/
theorem tokenEventsComplete : Obligations.TokenEventsComplete := by
  refine ⟨⟨?waitToken, ?slotNop, ?tokenArrival, ?waitTimeout⟩, ?chainRecord, ?engineToken, ?engineTimeout⟩
  case waitToken =>
    intro c s hc hruns hb hq hwait
    have h : AtWait s c := ⟨hruns, hb, hq, hwait⟩
    refine ⟨fun hn => ?_, fun hshort hw => by rw [exec_waitToken s hc, waitStep_short h hshort hw]⟩
    refine ⟨takeCount (s.core c) (fetch s c), readT_writeT_same _ _ _, fun k hk => readT_writeT_other _ _ hk, rfl,
      fun hoff => ?_, fun hon => ?_⟩
    · rw [exec_waitToken s hc, waitStep_off h hn hoff]
      rfl
    · rw [exec_waitToken s hc, waitStep_on h hn hon]
      refine ⟨fun r hi => ?_, fun r hi => ?_, fun hi => ?_⟩ <;> rw [hi] <;> rfl
  case slotNop =>
    intro c slot s r b hslot hacts
    exact exec_slotNop hslot hacts
  case tokenArrival =>
    intro c tok s hc ht hr
    rw [exec_tokenArrival hc ht hr]
    refine ⟨fun hp => by rw [addToken_kept hc ht hp], fun hp hv => ?_⟩
    obtain ⟨y, hy, hadd⟩ := addToken_adds hc ht hp hv
    rw [hy]
    refine ⟨_, rfl, ?_, fun k hk => ?_, fun k hk => State.core_setCore_other _ _ _ _ hk, rfl⟩
    · rw [State.core_setCore, hadd.readT_same]
    · rw [State.core_setCore, hadd.readT_other hk]
  case waitTimeout =>
    intro c s since hc hruns hst hw h0 hl
    exact exec_waitTimeout hc hruns hst hw h0 hl
  case chainRecord =>
    intro g record s m hg hr hm hcore hv c slot hp
    exact chainRecord_completes hg hr hm hcore hv hp
  case engineToken =>
    intro g eng tok s hg he ht hr hv
    rw [exec_engineTokenArrival hg he ht hr, addEToken_adds ht hv]
  case engineTimeout =>
    intro g eng off since s hg he hruns hhead hw h0 hl
    exact exec_engineWaitTimeout hg he hruns hhead hw h0 hl

end Sys2Proof.Safety
end

section
/-!
SUPPORT. Parity mismatches, scrub reads, die copies and shadow-core tests (R135, R210 to R214, R221, R415; O44): what each event comes
to where it is served.
-/
namespace Sys2Proof.Safety

open Sys2Proof.Machine

/-! ### PARITY_MISMATCH (R135, R210 to R212) -/

theorem not_idle {s : State} (h : working s = true) : ¬(!working s) = true := by
  rw [h]
  exact Bool.false_ne_true

/-- An array cannot replay: its count and one event, and the step is tainted. -/
theorem exec_parityMismatch_column {m : Mismatch} {s : State} {c a j : Nat} (hwf : wellFormed (.parityMismatch m) = true)
    (hwork : working s = true) (hres : m.res = .column c a j) :
    exec (.parityMismatch m) s = .next (taintReset (countEvent (s.modCore c fun x =>
      { x with arrays := tmod .reset x.arrays a fun r => { r with parEvents := satInc 0xFFFF r.parEvents } }) m.res)) := by
  obtain ⟨res, pa, eng, failures, word⟩ := m
  subst hres
  exact (guarded_next hwf).trans (congrArg Host.Outcome.next (if_neg (not_idle hwork)))

/-- Elsewhere on a memory path the replays stall the core, and their outcome counts against the resource that serves the access. -/
theorem exec_parityMismatch_replays {m : Mismatch} {s : State} (hwf : wellFormed (.parityMismatch m) = true)
    (hwork : working s = true) (hpath : onMemoryPath m.res = true) (hres : ∀ c a j, m.res ≠ .column c a j) :
    exec (.parityMismatch m) s = .next (
      if m.failures < 3 then countEvent (countReplay (stallReplay s m) (mismatchRes s m)) (mismatchRes s m)
      else taintReset (markLasting (recordLoss (stallReplay s m) { m with res := mismatchRes s m }) (mismatchRes s m))) := by
  refine (guarded_next hwf).trans (congrArg Host.Outcome.next ((if_neg (not_idle hwork)).trans ?_))
  obtain ⟨res, pa, eng, failures, word⟩ := m
  cases res with
  | column c a j => exact absurd rfl (hres c a j)
  | core | bank | die | laneGroup | rfEntry => rfl
  | pipeline | cipherCore | mgmtCore | builtinTest | linkLane | portLogic | pstDie | pstRecord => exact absurd hpath Bool.false_ne_true

/-! ### SCRUB_READ (R214, R224) -/

/-- The word of a tier that its next scrub read takes. -/
def scrubPosition (k : Stk) (dense : Bool) : Nat := if dense = true then k.denseScrub else k.fastScrub

theorem scrubbed_position (k : Stk) (dense : Bool) (now : Nat) :
    scrubPosition (k.scrubbed dense now) dense = (scrubPosition k dense + 1) % tierWords dense := by
  cases dense <;> rfl

/-- After a tier's last word the pass is counted, and the next takes the period now written. -/
theorem scrubbed_ends_pass {k : Stk} {dense : Bool} (now : Nat) (h : (scrubPosition k dense + 1) % tierWords dense = 0) :
    if dense = true then
      (k.scrubbed dense now).densePasses = satInc 0xFF k.densePasses ∧ (k.scrubbed dense now).densePeriod = k.scrubPeriod
    else (k.scrubbed dense now).fastPasses = satInc 0xFF k.fastPasses ∧ (k.scrubbed dense now).fastPeriod = k.scrubPeriod := by
  cases dense with
  | false => exact ⟨if_pos h, if_pos h⟩
  | true => exact ⟨if_pos h, if_pos h⟩

/-- A stack that works, and is neither in a dip nor short of a rail, reads the next word of a tier that scrubs, or whose unit of 1 KiB
is still to end. -/
theorem exec_scrubRead {n : Nat} {dense : Bool} {s : State} (failures : Nat) (hn : n < 20) (hwork : working s = true)
    (hlow : s.pwr.low = 0) (hdip : s.pwr.dip = false) (hserves : stackServes s n = true)
    (hscrubs : (s.stack n).scrubEn = true ∨ scrubPosition (s.stack n) dense % 256 ≠ 0)
    (hcopy : (if dense = true then (s.stack n).denseCopying else (s.stack n).fastCopying) = false) :
    exec (.scrubRead n dense failures) s = .next (
      let u := s.modStack n fun k => k.scrubbed dense s.now
      if failures = 0 then u
      else scrubFail u n dense (scrubOffset (scrubPosition (s.stack n) dense)) (decide (4 ≤ failures))) := by
  have hunit : (!(s.stack n).scrubEn && scrubPosition (s.stack n) dense % scrubUnit == 0) = false := by
    rcases hscrubs with hen | hpos
    · rw [hen]; rfl
    · rw [show (_ % scrubUnit == 0) = false from beq_false_of_ne hpos, Bool.and_false]
  refine (guarded_next (i := .scrubRead n dense failures) (decide_eq_true hn)).trans (congrArg Host.Outcome.next (if_neg ?_))
  show ¬(!working s || (!(s.stack n).scrubEn && scrubPosition (s.stack n) dense % scrubUnit == 0) || _ || s.pwr.dip || s.pwr.low != 0 ||
    !stackServes s n) = true
  rw [hwork, hunit, hcopy, hdip, hlow, hserves]
  exact Bool.false_ne_true

/-! ### DIE_COPY_END (R221) -/

/-- The copy onto a tier's shadow die runs. -/
def copyRuns (k : Stk) (dense : Bool) : Bool :=
  if dense = true then k.denseCopying && k.denseRunning else k.fastCopying && k.fastRunning

/-- The stack after that copy. -/
def copyEnded (k : Stk) (dense : Bool) : Stk :=
  if dense = true then { k with denseCopying := false, denseRunning := false, densePtr := dieUnits true }
  else { k with fastCopying := false, fastRunning := false, fastPtr := dieUnits false }

theorem exec_dieCopyEnd {n : Nat} {dense : Bool} {s : State} (hn : n < 20) (hruns : copyRuns (s.stack n) dense = true) :
    exec (.dieCopyEnd n dense) s = .next (ownWrite (s.modStack n fun k => copyEnded k dense) (ixDieMap n)
      (dieMap s n - (if dense = true then 512 else 256))
      (.copyEnd (resWord (.die n dense ((if dense = true then (s.stack n).denseDie else (s.stack n).fastDie).getD 0))))) := by
  refine (guarded_next (i := .dieCopyEnd n dense) (decide_eq_true hn)).trans (congrArg Host.Outcome.next (if_neg ?_))
  show ¬(!copyRuns (s.stack n) dense) = true
  rw [hruns]
  exact Bool.false_ne_true

/-! ### SHADOW_TEST_DONE (R415) -/

/-- The swap is that of the shadow core of cluster g, and its record is written. -/
def shadowSwap (g : Nat) (w : Swap) : Bool := resClass w.res == 1 && decide (w.res % 2 ^ 24 / 12 = g) && w.written

/-- The state after the test: a passed shadow core may take its core's place, a failed one leaves the core to be repaired. -/
def shadowTested (g : Nat) (pass : Bool) (s : State) (w : Swap) : State :=
  if pass = true then
    swapsOutsideRun { s with spr := { s.spr with
      swaps := s.spr.swaps.map fun x => if shadowSwap g x = true then { x with tested := true } else x } }
  else needsRepair s (resWord (.builtinTest (w.res % 2 ^ 24)))

theorem exec_shadowTestDone {g : Nat} {s : State} {w : Swap} (pass : Bool) (hg : g < 40)
    (hfind : s.spr.swaps.find? (shadowSwap g) = some w) :
    exec (.shadowTestDone g pass) s = .next (shadowTested g pass s w) := by
  have hrow : exec (.shadowTestDone g pass) s = guarded (.shadowTestDone g pass) s fun s =>
      match s.spr.swaps.find? (shadowSwap g) with
      | none => s
      | some w => shadowTested g pass s w := rfl
  rw [hrow, guarded_next (i := .shadowTestDone g pass) (decide_eq_true hg), hfind]

/-! ### The obligation -/

/-- Settles O44: each event's outcome is its row's; a scrub read moves the tier's position and ends the pass after the last word. -/
theorem faultEventsComplete : Obligations.FaultEventsComplete := by
  refine ⟨fun m s hwf hwork hpath => ⟨?column, ?replayed, ?lost⟩, ?scrub, fun n s hn => ⟨?fast, ?dense⟩,
    fun g s w hg hfind => ⟨?passed, ?failed⟩⟩
  case column => exact fun c a j hres => exec_parityMismatch_column hwf hwork hres
  case replayed =>
    intro hres hfew
    rw [exec_parityMismatch_replays hwf hwork hpath hres, if_pos hfew]
  case lost =>
    intro hres hthree
    rw [exec_parityMismatch_replays hwf hwork hpath hres, if_neg (by omega)]
  case scrub =>
    intro n failures dense s hn hwork hlow hdip hserves hscrubs hcopy at' u
    have hstack : u.stack n = (s.stack n).scrubbed dense s.now := State.stack_modStack s n _
    have hexec := exec_scrubRead failures hn hwork hlow hdip hserves hscrubs hcopy
    refine ⟨?_, fun hlast => ?_, fun hnone => ?_, fun hsome => ?_⟩
    · rw [hstack]
      exact scrubbed_position _ _ _
    · rw [hstack]
      exact scrubbed_ends_pass _ hlast
    · exact hexec.trans (congrArg _ (if_pos hnone))
    · exact hexec.trans (congrArg _ (if_neg hsome))
  case fast => exact fun hcopy hrun => exec_dieCopyEnd hn (Bool.and_eq_true_iff.mpr ⟨hcopy, hrun⟩)
  case dense => exact fun hcopy hrun => exec_dieCopyEnd hn (Bool.and_eq_true_iff.mpr ⟨hcopy, hrun⟩)
  case passed => exact exec_shadowTestDone true hg hfind
  case failed => exact exec_shadowTestDone false hg hfind

end Sys2Proof.Safety
end

section
/-!
SUPPORT. The element-wise vector ops at FMT 6 (R137, R144, R151; O60): which byte of VD holds which byte of which element, what a masked
element gives, and the values of the integer ops.
-/
namespace Sys2Proof.Safety

open Sys2Proof.Machine

/-! ### Bytes of packed elements (R137) -/

theorem leBytes_getElem? {n k : Nat} (v : Nat) (hk : k < n) : (leBytes n v)[k]? = some (BitVec.ofNat 8 (v / 256 ^ k)) := by
  induction n generalizing v k with
  | zero => exact absurd hk (Nat.not_lt_zero k)
  | succ n ih =>
    cases k with
    | zero => simp [leBytes]
    | succ k => rw [leBytes, List.getElem?_cons_succ, ih _ (Nat.lt_of_succ_lt_succ hk), Nat.div_div_eq_div_mul, ← Nat.pow_succ']

/-- Bytes of one element of a format of whole bytes, each with the bits written: all of them, or none where it is left unchanged. -/
def elementBytes (fmt : Nat) (e : Option Nat) : List (Byte × Byte) :=
  (leBytes (halves fmt / 2) (e.getD 0)).map fun y => (y, if e.isSome then 0xFF else 0)

theorem elementBytes_length (fmt : Nat) (e : Option Nat) : (elementBytes fmt e).length = halves fmt / 2 := by
  rw [elementBytes, List.length_map, leBytes_length]

theorem elementBytes_getElem? {fmt k : Nat} (e : Option Nat) (hk : k < halves fmt / 2) :
    (elementBytes fmt e)[k]? = some (BitVec.ofNat 8 (e.getD 0 / 256 ^ k), if e.isSome then 0xFF else 0) := by
  rw [elementBytes, List.getElem?_map, leBytes_getElem? _ hk, Option.map_some]

/-- Only FMT 4 packs two elements into a byte. -/
theorem packMasked_eq_flatMap {fmt : Nat} (hfmt : fmt ≠ 4) (l : List (Option Nat)) :
    packMasked fmt l = l.flatMap (elementBytes fmt) := by
  induction l with
  | nil => rfl
  | cons a r ih =>
    cases r with
    | nil => simp [packMasked, hfmt, elementBytes]
    | cons b r => rw [packMasked, if_neg hfmt, ih]; rfl

theorem length_flatMap_of_length {α β : Type} {f : α → List β} {w : Nat} (hw : ∀ a, (f a).length = w) (l : List α) :
    (l.flatMap f).length = w * l.length := by
  induction l with
  | nil => rfl
  | cons a r ih => rw [List.flatMap_cons, List.length_append, hw, ih, List.length_cons, Nat.mul_succ, Nat.add_comm]

/-- Blocks of w entries each: entry k of block i stands at place w * i + k. -/
theorem getElem?_flatMap_of_length {α β : Type} {f : α → List β} {w k : Nat} (hw : ∀ a, (f a).length = w) (hk : k < w) (l : List α)
    (i : Nat) : (l.flatMap f)[w * i + k]? = l[i]?.bind fun a => (f a)[k]? := by
  induction l generalizing i with
  | nil => rfl
  | cons a r ih =>
    rw [List.flatMap_cons]
    cases i with
    | zero => rw [Nat.mul_zero, Nat.zero_add, List.getElem?_append_left (by rw [hw]; exact hk)]; rfl
    | succ i =>
      have hplace : w * (i + 1) + k - (f a).length = w * i + k := by rw [hw, Nat.mul_succ]; omega
      rw [List.getElem?_append_right (by rw [hw, Nat.mul_succ]; omega), hplace, ih, List.getElem?_cons_succ]

/-! ### An op with one result in VD (R151) -/

/-- Element i of VD after an op whose result is f. -/
def vdElement (v : VIn) (f : Nat → Nat × Status) (i : Nat) : Option Nat :=
  if v.on i then some (f i).1 else if v.pz then some 0 else none

theorem elements_fst (v : VIn) (n : Nat) (f : Nat → Nat × Status) : (elements v n f).1 = (List.range n).map (vdElement v f) := by
  rw [elements, List.map_map]
  refine List.map_congr_left fun i _ => ?_
  rw [Function.comp_apply, vdElement]
  split <;> rfl

theorem toVd_vd (v : VIn) {f : Nat → Nat × Status} (hfmt : v.fmt ≠ 4) :
    (toVd v f).vd = some (((List.range v.n).map (vdElement v f)).flatMap (elementBytes v.fmt)) := by
  rw [← elements_fst, ← packMasked_eq_flatMap hfmt]
  rfl

/-- A masked element holds 0, and where PZ is 0 none of its bits is written. -/
theorem vdElement_byte (v : VIn) (f : Nat → Nat × Status) (i k : Nat) :
    ((BitVec.ofNat 8 ((vdElement v f i).getD 0 / 256 ^ k), if (vdElement v f i).isSome then 0xFF else 0) : Byte × Byte) =
      (if v.on i = true then BitVec.ofNat 8 ((f i).1 / 256 ^ k) else 0, if v.on i = true ∨ v.pz = true then 0xFF else 0) := by
  cases hon : v.on i <;> cases hpz : v.pz <;> simp [vdElement, hon, hpz]

/-! ### INT32 results (R144) -/

/-- The whole of an op's results is VD, whose unmasked elements are the INT32 codes g. -/
def WritesInt32 (v : VIn) (o : VOut) (g : Nat → Nat) : Prop :=
  o.off = 0 ∧ o.pd = none ∧ o.sc = [] ∧ ∃ l, o.vd = some l ∧ l.length = 512 ∧
    ∀ i, i < 128 → ∀ k, k < 4 → l[4 * i + k]? = some
      ((if v.on i = true then BitVec.ofNat 8 (g i / 256 ^ k) else 0), (if v.on i = true ∨ v.pz = true then 0xFF else 0))

theorem toVd_writesInt32 {v : VIn} (hfmt : v.fmt = 6) (f : Nat → Nat × Status) : WritesInt32 v (toVd v f) fun i => (f i).1 := by
  have hn : v.n = 128 := by rw [VIn.n, hfmt]; rfl
  have hwidth : halves v.fmt / 2 = 4 := by rw [hfmt]; rfl
  have hlen (e : Option Nat) : (elementBytes v.fmt e).length = 4 := (elementBytes_length v.fmt e).trans hwidth
  refine ⟨rfl, rfl, rfl, _, toVd_vd v (by rw [hfmt]; decide), ?_, fun i hi k hk => ?_⟩
  · rw [length_flatMap_of_length hlen, List.length_map, List.length_range, hn]
  · have helem : ((List.range v.n).map (vdElement v f))[i]? = some (vdElement v f i) := by
      rw [List.getElem?_map, List.getElem?_range (by rw [hn]; exact hi), Option.map_some]
    rw [getElem?_flatMap_of_length hlen hk, helem, Option.bind_some, elementBytes_getElem? _ (by rw [hwidth]; exact hk),
      vdElement_byte]

/-- At FMT 6 an arithmetic op takes its integer branch, modulo 2^32 (R138). -/
theorem arith_writesInt32 {v : VIn} (hfmt : v.fmt = 6) (int : Nat → Nat) (flt : Nat → Machine.Num) :
    WritesInt32 v (toVd v (arith v int flt)) fun i => int i % 2 ^ 32 := by
  have harith (i : Nat) : (arith v int flt i).1 = int i % 2 ^ 32 := by rw [arith, if_pos hfmt]
  simpa only [harith] using toVd_writesInt32 hfmt (arith v int flt)

theorem vBitsOut_writesInt32 {v : VIn} (hfmt : v.fmt = 6) (f : Nat → Nat → Nat) :
    WritesInt32 v (vBitsOut f v) fun i => f (v.a i) (v.b i) :=
  toVd_writesInt32 hfmt fun i => (f (v.a i) (v.b i), .none)

/-! ### The obligation -/

/-- Settles O60: each op is of one of three forms (arithmetic, bitwise, a plain result), and each form writes VD alone. -/
theorem integerVectorResults : Obligations.IntegerVectorResults := by
  intro v hfmt
  refine ⟨?add, ?sub, ?mul, ?and, ?or, ?xor, ?shl, ?shr⟩
  case add => exact arith_writesInt32 hfmt _ _
  case sub => exact arith_writesInt32 hfmt _ _
  case mul => exact arith_writesInt32 hfmt _ _
  case and => exact vBitsOut_writesInt32 hfmt _
  case or => exact vBitsOut_writesInt32 hfmt _
  case xor => exact vBitsOut_writesInt32 hfmt _
  case shl => exact toVd_writesInt32 hfmt _
  case shr => exact toVd_writesInt32 hfmt _

end Sys2Proof.Safety
end

section
/-!
SUPPORT. The rows of the cluster engines (R164, R168, R170, R171, R194, R309; O39). A row is `engineOp` with its engine, opcode and
effect; the form completes once, and each row cites that.
-/
namespace Sys2Proof.Safety

open Sys2Proof.Machine

/-- A command that plans a descriptor comes to what the descriptor's effect says. -/
theorem plans_of_exec {i : Instr} {g eng off d : Nat} {f : State → Nat → Except Stop (List (List Act))} {s begun : State}
    (h : exec i s = .next (planDesc s begun g eng off d f)) : Plans i g eng off d f s begun := by
  unfold planDesc at h
  constructor
  case runs => intro work hf; rw [h, hf]
  case faults => intro code hf; rw [h, hf]
  case asks => intro q pa n ret hf; rw [h, hf]
  case holds => intro hf; rw [h, hf]

/-- Every op of the form `engineOp` completes; opcode 0 is NOP, which is no op of an engine (R173). -/
theorem engineOp_completes {i : Instr} {g eng op : Nat} {f : State → Nat → Except Stop (List (List Act))} (hop : op ≠ 0)
    (hrow : ∀ s, exec i s = guarded i s (engineOp g eng op f)) : EngineCompletes i g eng op f := by
  have hexec (hwf : wellFormed i = true) (s : State) : exec i s = .next (engineOp g eng op f s) := by rw [hrow, guarded_next hwf]
  constructor
  case starts =>
    intro s off d hwf hstarts
    exact plans_of_exec (by rw [hexec hwf, engineOp_starts hstarts hop])
  case resumes =>
    intro s off hwf hruns hhead hbegun hop' hwork howed
    exact plans_of_exec (by rw [hexec hwf, engineOp_resumes hruns hhead hbegun hop' hwork howed])
  case goesOn =>
    intro s off hwf hruns hhead hbegun hop' hmore
    rw [hexec hwf, engineOp_goes_on hruns hhead hbegun hop' hmore]

/-- Settles O39: every row is `engineOp` with its engine, opcode and effect. -/
theorem engineOpsComplete : Obligations.EngineOpsComplete := by
  intro g _
  refine ⟨fun eng _ => ?copy, fun eng _ => ?skew, fun eng _ => ?fill, ?_⟩
  case copy => exact engineOp_completes (by decide) fun _ => rfl
  case skew => exact engineOp_completes (by decide) fun _ => rfl
  case fill => exact engineOp_completes (by decide) fun _ => rfl
  and_intros <;> exact engineOp_completes (by decide) fun _ => rfl

end Sys2Proof.Safety
end

section
/-!
SUPPORT. A KICK of no engine (R88, R165; O56): a bundle that the checks made at issue refuse raises BAD_BUNDLE, whichever op asks for
its issue.
-/
namespace Sys2Proof.Safety

open Sys2Proof.Machine

/-- A KICK of an engine past 9 is no valid control slot (R165). -/
theorem controlValid_kick_false {w : Nat} (hop : opOf w = 0x38) (heng : 10 ≤ bits w 33 30) : controlValid w = false := by
  unfold controlValid
  simp [hop, Nat.not_le.mpr heng]

/-- An enabled control slot that is not valid makes its bundle invalid (R88). -/
theorem bundleValid_false_of_control {x : Core} {raw : BitVec 1024} (hon : slotEnabled raw 7 = true)
    (hbad : controlValid (slotWord raw 7) = false) : bundleValid x raw = false := by
  cases hvalid : bundleValid x raw with
  | false => rfl
  | true =>
    unfold bundleValid at hvalid
    simp only [Bool.and_eq_true, List.all_eq_true] at hvalid
    have hslot := hvalid.1.2 7 (by decide)
    simp [hon, hbad] at hslot

/-- A core at a bundle boundary whose wait is made tries to issue the bundle at its PC. -/
theorem issue_tries {s : State} {c : Nat} (hruns : coreRuns s c = true) (hidle : (s.core c).bun = none) (hlive : s.glb.state ≠ .quiesced)
    (hmade : mustWait (s.core c) (fetch s c) = false) : issue s c = tryIssue s c (fetch s c) := by
  unfold issue
  simp [hruns, hidle, hlive, hmade]

/-- The state after BAD_BUNDLE at the PC of a core (R107). -/
theorem corePlanFault_badBundle (s : State) (c : Nat) : corePlanFault s c 1 (s.core c).pc 0 =
    endRun (raiseOpen (s.modCore c fun x => { x with faultCode := 1, faultPc := x.pc, faultTok := 0 }) 1) := rfl

/-- A bundle that is predicated on and invalid does not issue: it raises BAD_BUNDLE. -/
theorem tryIssue_invalid {s : State} {c : Nat} {raw : BitVec 1024} (hon : (readP (s.core c) c (bpredOf raw)).getLsbD 0 = true)
    (hbad : bundleValid (s.core c) raw = false) : tryIssue s c raw = .faulted (corePlanFault s c 1 (s.core c).pc 0) := by
  unfold tryIssue
  simp [hon, hbad]

/-- An op of a bundle that faults at issue comes to the fault. -/
theorem slotOp_faulted {s r : State} {c slot op : Nat} {masked : Bool} (f : State → Nat → Bun → State) (h : issue s c = .faulted r) :
    slotOp c slot op masked f s = r := by
  unfold slotOp
  rw [h]

/-- Settles O56: the KICK makes the bundle invalid (`controlValid_kick_false`), so that it faults where it would issue. -/
theorem kickOfNoEngineIsRefused : Obligations.KickOfNoEngineIsRefused := by
  intro c s hc hruns hidle hlive hmade hon hslot hop heng
  have hbad := bundleValid_false_of_control (x := s.core c) hslot (controlValid_kick_false hop heng)
  have hissue : issue s c = .faulted (corePlanFault s c 1 (s.core c).pc 0) := by
    rw [issue_tries hruns hidle hlive hmade, tryIssue_invalid hon hbad]
  rw [← corePlanFault_badBundle, ← slotOp_faulted _ hissue]
  exact guarded_next (i := .ctlKick c) (decide_eq_true hc)

end Sys2Proof.Safety
end

section
/-!
SUPPORT. SETSLOT and a FILL of one row (R164, R174, R175, R184, R198; O40): what the write of a segment leaves, and that writes of
neighbouring parts of a row, performed in turn, leave what one write of the whole row leaves.
-/
namespace Sys2Proof.Safety

open Sys2Proof.Machine

/-! ### An effect whose checks pass -/

theorem require_true (stop : Stop) : require true stop = .ok () := rfl

theorem ok_bind {α β : Type} (a : α) (f : α → Except Stop β) : (Except.ok a >>= f) = f a := rfl

/-! ### SETSLOT (R184) -/

/-- The slot that SETSLOT sets, and its key selector and counter. -/
def setslotAct (d : Nat) : Act := .slot (dbits d 8 3 0) (BitVec.ofNat 32 (dbits d 12 31 0), BitVec.ofNat 128 (dbits d 16 127 0))

theorem setslotEffect_ok {d : Nat} (s : State) (h8 : dbits d 8 7 6 = 0) (h9 : zeroBytes d 9 11 = true) (h32 : zeroBytes d 32 63 = true) :
    setslotEffect s d = .ok [[setslotAct d]] := by
  unfold setslotEffect
  simp only [h8, h9, h32, decide_true, Bool.and_self, require_true, ok_bind]
  rfl

/-- A segment that sets a slot changes the slots of its cluster alone. -/
theorem doSegment_slot (g n : Nat) (s : State) (v : W32 × BitVec 128) :
    doSegment g 6 s [.slot n v] = s.modCluster g fun c => { c with rng := tput c.rng n v } := rfl

theorem cluster_modCluster_same (s : State) (g : Nat) (f : Cluster → Cluster) : (s.modCluster g f).cluster g = f (s.cluster g) :=
  State.cluster_setCluster _ _ _

theorem cluster_modCluster_other {g k : Nat} (s : State) (f : Cluster → Cluster) (h : k ≠ g) :
    (s.modCluster g f).cluster k = s.cluster k := tget_tput_other _ _ _ _ _ h

/-! ### The parts of a row (R164) -/

/-- The bytes of a row that lie in its segment k. -/
def rowPart (row : List Byte) (k : Nat) : List Byte := (row.drop (segBytes * k)).take segBytes

/-- Outputs of a descriptor that reads nothing are written as they are. -/
theorem outputBytes_of_no_source (ticket : Nat) (t : Target) (pa : Nat) (bytes : List Byte) :
    outputBytes ticket t [] pa bytes = bytes := by
  refine List.ext_getElem (by simp [outputBytes]) fun i _ hi => ?_
  simp [outputBytes, List.getD_eq_getElem?_getD, hi]

/-- The write of the part of a row in segment k, on this device. -/
def rowAct (pa : Nat) (row : List Byte) (k : Nat) : Act := .put none (pa + segBytes * k) (rowPart row k)

/-- One row whose bytes no source covers is written part by part. -/
theorem putActs_row {dst : Target} (hpos : dst.pos = none) (ticket pa : Nat) (row : List Byte) :
    putActs dst [] ticket 0 [(pa, row)] = (List.range (unitsOf segBytes row.length)).map fun k => (k, rowAct pa row k) := by
  have hlen (k : Nat) : min row.length ((k + 1) * segBytes) - k * segBytes = min segBytes (row.length - k * segBytes) := by
    rw [Nat.succ_mul]
    omega
  unfold putActs segParts
  rw [outputBytes_of_no_source, hpos]
  simp [putActs, rowAct, rowPart, unitsOf, hlen, Nat.mul_comm segBytes]

/-- Segments with one effect each. -/
theorem segmentsOf_one_each (n : Nat) (f : Nat → Act) :
    segmentsOf n ((List.range n).map fun k => (k, f k)) = (List.range n).map fun k => [f k] := by
  unfold segmentsOf
  refine List.map_congr_left fun k hk => ?_
  have hone : (List.range n).filter (fun i => i == k) = [k] := by
    rw [List.filter_beq, List.count_range, if_pos (List.mem_range.mp hk)]
    rfl
  simp [List.filter_map, Function.comp_def, hone]

/-- The parts of a row up to segment k are its first bytes. -/
theorem take_append_rowPart (row : List Byte) (k : Nat) :
    row.take (segBytes * k) ++ rowPart row k = row.take (segBytes * (k + 1)) := by
  rw [Nat.mul_succ, List.take_add]
  rfl

/-! ### Writes of bytes -/

theorem writeBytes_append (a b : List Byte) (s : State) (pa : Nat) :
    writeBytes s pa (a ++ b) = writeBytes (writeBytes s pa a) (pa + a.length) b := by
  induction a generalizing s pa with
  | nil => rfl
  | cons x a ih =>
    rw [List.cons_append, writeBytes, ih, List.length_cons, Nat.add_comm a.length, ← Nat.add_assoc]
    rfl

/-- What a write of bytes leaves in memory depends on memory and the generations alone. -/
theorem writeBytes_mem_congr (bs : List Byte) {s t : State} (pa : Nat) (hm : t.mem = s.mem) (hg : t.gens = s.gens) :
    (writeBytes t pa bs).mem = (writeBytes s pa bs).mem := by
  induction bs generalizing s t pa with
  | nil => exact hm
  | cons b r ih =>
    have hdefault : memDefault t pa = memDefault s pa := by
      unfold memDefault genAt
      rw [hg]
    refine ih (s := writeByte s pa b) (t := writeByte t pa b) (pa + 1) ?_ hg
    simp only [writeByte, hm, hdefault]

/-- Outside a cache of a core of the run the engine port just writes. -/
theorem portWrite_outside_run {s : State} {pa : Nat} (bs : List Byte) (h : ∀ c o, placeOf pa = .cache c o → (s.core c).active = false) :
    portWrite s pa bs = writeBytes s pa bs := by
  unfold portWrite
  split
  · next c o hplace => simp [h c o hplace]
  · rfl

/-! ### What a DMA engine counts (R198) -/

/-- An engine that has written n bytes more, counted in units of 4 KiB. -/
def counted (x : Engine) (n : Nat) : Engine :=
  { x with units := satAdd 0xFFFFFFFF x.units ((x.rest + n) / 4096), rest := (x.rest + n) % 4096 }

theorem counted_counted (x : Engine) (m n : Nat) : counted (counted x m) n = counted x (m + n) := by
  have hrest : ((x.rest + m) % 4096 + n) % 4096 = (x.rest + (m + n)) % 4096 := by omega
  have hunits : satAdd 0xFFFFFFFF (satAdd 0xFFFFFFFF x.units ((x.rest + m) / 4096)) (((x.rest + m) % 4096 + n) / 4096) =
      satAdd 0xFFFFFFFF x.units ((x.rest + (m + n)) / 4096) := by
    simp only [satAdd, Nat.min_def]
    split <;> split <;> split <;> omega
  simp only [counted, hrest, hunits]

theorem engine_modEngine (s : State) (g e : Nat) (f : Engine → Engine) : (s.modEngine g e f).engine g e = f (s.engine g e) := by
  simp [State.modEngine, State.engine, State.modCluster, tmod]

theorem modEngine_modEngine (s : State) (g e : Nat) (f h : Engine → Engine) :
    (s.modEngine g e f).modEngine g e h = s.modEngine g e (h ∘ f) := by
  simp [State.modEngine, State.modCluster, State.setCluster, State.cluster, tmod, tput_tput]

/-! ### A row written by a DMA engine (R164, R174, R175) -/

/-- The state in which engine e of cluster g has written bytes, in k segments. -/
def dmaWrote (g e pa : Nat) (bs : List Byte) (k : Nat) (s : State) : State :=
  { s with mem := (writeBytes s pa bs).mem, clusters := (s.modEngine g e fun x => counted x bs.length).clusters, fresh := s.fresh + k }

theorem readByte_dmaWrote (g e pa : Nat) (bs : List Byte) (k : Nat) (s : State) (a : Nat) :
    readByte (dmaWrote g e pa bs k s) a = readByte (writeBytes s pa bs) a := by
  rw [writeBytes_frame]
  rfl

theorem engine_dmaWrote (g e pa : Nat) (bs : List Byte) (k : Nat) (s : State) :
    (dmaWrote g e pa bs k s).engine g e = counted (s.engine g e) bs.length := engine_modEngine s g e _

/-- A segment that writes bytes outside the caches of the run. -/
theorem doSegment_put {g e pa : Nat} {s : State} {bs : List Byte} (he : e < 2)
    (h : ∀ c o, placeOf pa = .cache c o → (s.core c).active = false) :
    doSegment g e s [.put none pa bs] = dmaWrote g e pa bs 1 s := by
  have hcount : doSegment g e s [.put none pa bs] = ((portWrite s pa bs).ticket).modEngine g e fun x => counted x bs.length := by
    show countDma _ g e (bs.length + 0) = _
    unfold countDma
    rw [if_pos (by omega)]
    rfl
  rw [hcount, portWrite_outside_run bs h, writeBytes_frame]
  rfl

/-- Two neighbouring writes leave what one write of both leaves. -/
theorem dmaWrote_dmaWrote (g e pa : Nat) (a b : List Byte) (j k : Nat) (s : State) :
    dmaWrote g e (pa + a.length) b k (dmaWrote g e pa a j s) = dmaWrote g e pa (a ++ b) (j + k) s := by
  have hmem : (writeBytes (dmaWrote g e pa a j s) (pa + a.length) b).mem = (writeBytes s pa (a ++ b)).mem := by
    have hgens : (dmaWrote g e pa a j s).gens = (writeBytes s pa a).gens := by
      rw [writeBytes_frame]
      rfl
    rw [writeBytes_append]
    exact writeBytes_mem_congr b (pa + a.length) rfl hgens
  have hclusters : ((dmaWrote g e pa a j s).modEngine g e fun x => counted x b.length).clusters =
      (s.modEngine g e fun x => counted x (a ++ b).length).clusters := by
    have htwo : (fun x => counted x b.length) ∘ (fun x => counted x a.length) = fun x => counted x (a ++ b).length := by
      funext x
      rw [Function.comp_apply, counted_counted, List.length_append]
    rw [← htwo, ← modEngine_modEngine]
    rfl
  have hfresh : (dmaWrote g e pa a j s).fresh + k = s.fresh + (j + k) := Nat.add_assoc _ _ _
  rw [dmaWrote, hmem, hclusters, hfresh]
  rfl

/-- The first segments of a row that lies outside the caches of the run leave together what one write of its first bytes leaves. -/
theorem doSegments_take {g e pa : Nat} {s : State} {row : List Byte} (he : e < 2)
    (h : ∀ a, pa ≤ a → a < pa + row.length → ∀ c o, placeOf a = .cache c o → (s.core c).active = false)
    (m : Nat) (hm : segBytes * m < row.length) :
    forEach ((List.range (m + 1)).map fun k => [rowAct pa row k]) (doSegment g e) s =
      dmaWrote g e pa (row.take (segBytes * (m + 1))) (m + 1) s := by
  have hput (k : Nat) (hk : segBytes * k < row.length) (t : State) (hcores : t.cores = s.cores) :
      doSegment g e t [rowAct pa row k] = dmaWrote g e (pa + segBytes * k) (rowPart row k) 1 t := by
    refine doSegment_put he fun c o hplace => ?_
    have hcore : t.core c = s.core c := congrArg (fun l => tget Core.reset l c) hcores
    rw [hcore]
    exact h _ (Nat.le_add_right _ _) (by omega) c o hplace
  induction m with
  | zero =>
    show doSegment g e s [rowAct pa row 0] = _
    rw [hput 0 hm s rfl, ← take_append_rowPart row 0]
    rfl
  | succ m ih =>
    have hlen : (row.take (segBytes * (m + 1))).length = segBytes * (m + 1) := List.length_take_of_le (Nat.le_of_lt hm)
    have hprev : segBytes * m < row.length := Nat.lt_of_le_of_lt (Nat.mul_le_mul_left _ (Nat.le_succ m)) hm
    rw [List.range_succ, List.map_append, forEach, List.foldl_append]
    show doSegment g e (forEach _ (doSegment g e) s) [rowAct pa row (m + 1)] = _
    rw [ih hprev, hput (m + 1) hm (dmaWrote ..) rfl, ← take_append_rowPart row (m + 1), ← dmaWrote_dmaWrote, hlen]

/-- All segments of such a row leave together what one write of the row leaves. -/
theorem doSegments_row {g e pa : Nat} {s : State} {row : List Byte} (he : e < 2)
    (h : ∀ a, pa ≤ a → a < pa + row.length → ∀ c o, placeOf a = .cache c o → (s.core c).active = false)
    (hrow : 1 ≤ row.length) :
    forEach ((List.range (unitsOf segBytes row.length)).map fun k => [rowAct pa row k]) (doSegment g e) s =
      dmaWrote g e pa row (unitsOf segBytes row.length) s := by
  obtain ⟨m, hm, hlow, hhigh⟩ : ∃ m, unitsOf segBytes row.length = m + 1 ∧ segBytes * m < row.length ∧
      row.length ≤ segBytes * (m + 1) := by
    refine ⟨(row.length - 1) / segBytes, ?_⟩
    simp only [unitsOf, segBytes]
    omega
  rw [hm, doSegments_take he h m hlow, List.take_of_length_le hhigh]

/-! ### FILL (R175) -/

/-- The bytes of a row of FILL. -/
def padRow (d : Nat) : List Byte := (List.range (dbits d 24 31 0)).map fun b => BitVec.ofNat 8 (dbits d 48 31 0 >>> (8 * (b % 4)))

theorem padRow_length (d : Nat) : (padRow d).length = dbits d 24 31 0 := by
  rw [padRow, List.length_map, List.length_range]

/-- A FILL of one row that meets no fault writes its row part by part. -/
theorem fillEffect_ok {g d : Nat} {s : State} {dst : Target} (hres : dmaReserved d = true) (hmin : 1 ≤ dbits d 24 31 0)
    (hmax : dbits d 24 31 0 ≤ 2 ^ 24) (hone : dbits d 28 31 0 = 1) (hdst : targetOf s g (dword d 16) = .ok dst) (hpos : dst.pos = none)
    (hok : rangeOk s g dst true dst.pa (dbits d 24 31 0) = true) :
    fillEffect g s d =
      .ok ((List.range (unitsOf segBytes (dbits d 24 31 0))).map fun k => [rowAct dst.pa (padRow d) k]) := by
  have hrows : rowsOk s g dst true (dbits d 36 31 0) 1 (dbits d 24 31 0) = true := by simp [rowsOk, hok]
  have hparts := putActs_row hpos (s.fresh + 1) dst.pa (padRow d)
  rw [padRow_length] at hparts
  rw [← segmentsOf_one_each, ← hparts]
  unfold fillEffect
  simp only [hres, hone, hdst, hmin, hmax, and_self, decide_true, Bool.and_self, require_true, hrows, ok_bind, Nat.one_mul, List.range_one, List.map_cons,
    List.map_nil, Nat.zero_mul, Nat.add_zero]
  rfl

/-- Settles O40: SETSLOT is one `slot` act (`doSegment_slot`); the segments of a FILL of one row write its parts in turn, which leaves
what one write of the row leaves (`doSegments_row`). -/
theorem engineBodyEffects : Obligations.EngineBodyEffects := by
  refine ⟨fun g s d h8 h9 h32 => ?setslot,
    fun g e s d dst he hcanon hres hmin hmax hone hdst hpos hok hcache => ?fill⟩
  case setslot =>
    refine ⟨_, setslotEffect_ok s h8 h9 h32, ?_⟩
    rw [setslotAct, doSegment_slot]
    refine ⟨?_, fun k hk => ?_, fun k hk => cluster_modCluster_other _ _ hk, rfl⟩
    · rw [cluster_modCluster_same, tfind_tput_same]
    · rw [cluster_modCluster_same, tfind_tput_other _ _ _ _ hk]
  case fill =>
    have hlen := padRow_length d
    have hwrote := doSegments_row (g := g) (row := padRow d) he (by rwa [hlen]) (by rwa [hlen])
    rw [hlen] at hwrote
    refine ⟨_, dmaWrote g e dst.pa (padRow d) _ s, fillEffect_ok hres hmin hmax hone hdst hpos hok, ?length, hwrote.symm,
      fun b hb => ?inside, fun a ha => ?outside, ?rest, ?units, rfl, rfl, rfl⟩
    case length => simp [unitsOf, segBytes]
    case inside =>
      rw [readByte_dmaWrote, readByte_writeBytes_inside _ _ _ _ hcanon (by rwa [hlen])]
      simp [padRow]
    case outside => rw [readByte_dmaWrote, readByte_writeBytes_outside _ _ _ _ hcanon (by rwa [hlen])]
    case rest => rw [engine_dmaWrote, hlen, counted]
    case units => rw [engine_dmaWrote, hlen, counted]

end Sys2Proof.Safety
end

section
/-!
SUPPORT. Counters of two words (R280; O58). A pair of registers reads a counter (`CounterPair`) when its LO word is a `readLo` and its
HI word, 4 bytes after, the `readHi` of the same latch; the rule is proved once of every such pair, and each block says which of its
registers are pairs.
-/
namespace Sys2Proof.Safety

open Sys2Proof.Machine

/-! ### Latches -/

theorem tfind_tdel_same {α : Type} (t : Tab α) (k : Nat) : tfind (tdel t k) k = none := by
  induction t with
  | nil => rfl
  | cons e r ih =>
    obtain ⟨j, w⟩ := e
    by_cases hj : j = k
    · simpa [tdel, hj] using ih
    · simpa [tdel, tfind, hj] using ih

theorem readHi_latched {t : State} {off h : Nat} (v : Nat) (hl : tfind t.latches off = some h) :
    readHi t off v = (h, { t with latches := tdel t.latches off }) := by
  delta readHi
  rw [hl]

theorem readHi_unlatched {t : State} {off : Nat} (v : Nat) (hl : tfind t.latches off = none) :
    readHi t off v = (v / 2 ^ 32 % 2 ^ 32, t) := by
  delta readHi
  rw [hl]

/-- The registers at `lo` and `lo + 4` are the two words of a counter. -/
def CounterPair (lo : Nat) (count : State → Nat) : Prop :=
  (∀ s, readReg s lo = readLo s (lo + 4) (count s)) ∧ ∀ s, readReg s (lo + 4) = readHi s (lo + 4) (count s)

/-- R280, of every pair: the HI word comes from the latch that the read of LO filled, and that read empties it; with no latch it is
the counter's own. -/
theorem CounterPair.latches {lo : Nat} {count : State → Nat} (h : CounterPair lo count) (s t : State) :
    ((readReg s lo).1 = count s % 2 ^ 32) ∧
    (t.latches = (readReg s lo).2.latches →
      (readReg t (lo + 4)).1 = count s / 2 ^ 32 % 2 ^ 32 ∧ tfind (readReg t (lo + 4)).2.latches (lo + 4) = none) ∧
    (tfind t.latches (lo + 4) = none → (readReg t (lo + 4)).1 = count t / 2 ^ 32 % 2 ^ 32) := by
  obtain ⟨hlow, hhigh⟩ := h
  rw [hlow, hhigh]
  refine ⟨rfl, fun hkept => ?latched, fun hnone => ?current⟩
  case latched =>
    have hl : tfind t.latches (lo + 4) = some (count s / 2 ^ 32 % 2 ^ 32) := by
      rw [hkept]
      exact tfind_tput_same _ _ _
    rw [readHi_latched _ hl]
    exact ⟨rfl, tfind_tdel_same _ _⟩
  case current => rw [readHi_unlatched _ hnone]

/-! ### Reads by block (R208) -/

theorem readReg_glb {off : Nat} (s : State) (ho : off < 0x10000) : readReg s off = readGlb s off := by
  have h : regAt off = some (.glb, 0, off) := regAt_inside (base := 0) (count := 1) (by decide) (by decide) ho (by omega)
  delta readReg
  rw [h]

theorem readReg_clk {off o : Nat} (s : State) (ho : o < 0x10000) (hoff : off = 0x20000 + o) : readReg s off = readClk s o := by
  have h : regAt off = some (.clk, 0, o) := regAt_inside (base := 0x20000) (count := 1) (by decide) (by decide) ho (by omega)
  delta readReg
  rw [h]

theorem readReg_spr {off o : Nat} (s : State) (ho : o < 0x10000) (hoff : off = 0x60000 + o) : readReg s off = readSpr s o := by
  have h : regAt off = some (.spr, 0, o) := regAt_inside (base := 0x60000) (count := 1) (by decide) (by decide) ho (by omega)
  delta readReg
  rw [h]

theorem readReg_idl {off c o : Nat} (s : State) (hc : c < 480) (ho : o < 0x100) (hoff : off = 0x100000 + 0x100 * c + o) :
    readReg s off = readIdl s c o := by
  have h : regAt off = some (.idl, c, o) := regAt_inside (by decide) hc ho hoff
  delta readReg
  rw [h]

theorem readReg_upd {off n o : Nat} (s : State) (hn : n < 20) (ho : o < 0x10000) (hoff : off = 0xA00000 + 0x10000 * n + o) :
    readReg s off = readUpd s n o := by
  have h : regAt off = some (.upd, n, o) := regAt_inside (by decide) hn ho hoff
  delta readReg
  rw [h]

/-! ### The pairs of each block -/

/-- `CLK_TICK_LO` and `CLK_TICK_HI` (R485). -/
theorem counterPair_tick : CounterPair 0x20000 fun s => s.now :=
  ⟨fun s => readReg_clk (o := 0) s (by decide) rfl,
    fun s => readReg_clk (o := 4) s (by decide) rfl⟩

/-- `GLB_STEP_LO` and `GLB_STEP_HI` (R259). -/
theorem counterPair_step : CounterPair 0xCC fun s => s.run.step :=
  ⟨fun s => readReg_glb s (by decide),
    fun s => readReg_glb s (by decide)⟩

/-- The step whose reflection was acknowledged last (R441). -/
theorem counterPair_reflected : CounterPair 0x60224 fun s => s.spr.reflected :=
  ⟨fun s => readReg_spr (o := 0x224) s (by decide) rfl,
    fun s => readReg_spr (o := 0x228) s (by decide) rfl⟩

/-- HELD of the reflection held (R441). -/
theorem counterPair_held : CounterPair 0x6022C fun s => s.spr.held :=
  ⟨fun s => readReg_spr (o := 0x22C) s (by decide) rfl,
    fun s => readReg_spr (o := 0x230) s (by decide) rfl⟩

/-- `UPD_COMMITTED_LO` and `UPD_COMMITTED_HI` of a stack (R247). -/
theorem counterPair_committed {n : Nat} (hn : n < 20) :
    CounterPair (0xA00004 + 0x10000 * n) fun s => (s.unit n).committed := by
  have hhi : 0xA00004 + 0x10000 * n + 4 = 0xA00000 + 0x10000 * n + 8 := by omega
  refine ⟨fun s => ?low, fun s => ?high⟩
  case low =>
    rw [readReg_upd (o := 4) s hn (by decide) (by omega), hhi]
    rfl
  case high =>
    rw [readReg_upd (o := 8) s hn (by decide) (by omega), hhi]
    rfl

/-- `IDL_CAUSE_LO` of a cause: bits 2:0 of its offset are 0. -/
theorem readIdl_causeLo {k : Nat} (s : State) (c : Nat) (hk : k < 9) :
    readIdl s c (8 * k) = readLo s (0x100000 + 0x100 * c + 8 * k + 4) (tget 0 (s.core c).idle k) := by
  have hcause : 8 * k / 8 = k := by omega
  have hlo : 8 * k % 8 = 0 := by omega
  delta readIdl
  simp only [hcause, hlo, if_pos (show 8 * k < 0x48 by omega), if_true, Nat.add_assoc]

/-- `IDL_CAUSE_HI` of a cause. -/
theorem readIdl_causeHi {k : Nat} (s : State) (c : Nat) (hk : k < 9) :
    readIdl s c (8 * k + 4) = readHi s (0x100000 + 0x100 * c + 8 * k + 4) (tget 0 (s.core c).idle k) := by
  have hcause : (8 * k + 4) / 8 = k := by omega
  have hhi : ¬ (8 * k + 4) % 8 = 0 := by omega
  delta readIdl
  simp only [hcause, if_neg hhi, if_pos (show 8 * k + 4 < 0x48 by omega), Nat.add_assoc]

/-- `IDL_CAUSE_LO` and `IDL_CAUSE_HI` of a core, for each cause (R279). -/
theorem counterPair_idle {c k : Nat} (hc : c < 480) (hk : k < 9) :
    CounterPair (0x100000 + 0x100 * c + 8 * k) fun s => tget 0 (s.core c).idle k :=
  ⟨fun s => (readReg_idl s hc (by omega) rfl).trans (readIdl_causeLo s c hk),
    fun s => (readReg_idl (o := 8 * k + 4) s hc (by omega) (by omega)).trans (readIdl_causeHi s c hk)⟩

/-- `IDL_BUSY_LO` and `IDL_BUSY_HI` of a core (R279). -/
theorem counterPair_busy {c : Nat} (hc : c < 480) : CounterPair (0x100048 + 0x100 * c) fun s => (s.core c).busy := by
  have hhi : 0x100048 + 0x100 * c + 4 = 0x100000 + 0x100 * c + 0x4C := by omega
  refine ⟨fun s => ?low, fun s => ?high⟩
  case low =>
    rw [readReg_idl (o := 0x48) s hc (by decide) (by omega), hhi]
    rfl
  case high =>
    rw [readReg_idl (o := 0x4C) s hc (by decide) (by omega), hhi]
    rfl

/-! ### The obligation -/

/-- Settles O58: every LO/HI pair of the statement is a `CounterPair`, and R280 holds of each (`CounterPair.latches`). -/
theorem lowWordsLatchHighWords : Obligations.LowWordsLatchHighWords :=
  ⟨counterPair_tick.latches, counterPair_step.latches, counterPair_reflected.latches, counterPair_held.latches,
    fun _ hn => (counterPair_committed hn).latches,
    fun _ hc => ⟨fun _ hk => (counterPair_idle hc hk).latches, (counterPair_busy hc).latches⟩⟩

end Sys2Proof.Safety
end

section
/-!
SUPPORT. The commands of Fuelle sessions (R342 to R344, R371, R399, R400; O25): what a report to the host and what an action of one
session leave as it was (`Reported`, `WithinSession`), and what FUL_OPEN, FUL_CLOSE and FUL_STATUS leave of the session they name.
-/
namespace Sys2Proof.Safety

open Sys2Proof.Machine

/-! ### Sessions in the table -/

theorem tfind_cons {α : Type} (i : Nat) (w : α) (t : Tab α) (k : Nat) : tfind ((i, w) :: t) k = if i = k then some w else tfind t k := rfl

theorem tfind_tdel_other {α : Type} {k j : Nat} (t : Tab α) (h : j ≠ k) : tfind (tdel t k) j = tfind t j := by
  induction t with
  | nil => rfl
  | cons e r ih =>
    obtain ⟨i, w⟩ := e
    by_cases hi : i = k
    · have gone : tdel ((i, w) :: r) k = tdel r k := List.filter_cons_of_neg (by simpa using hi)
      rw [gone, ih, tfind_cons, if_neg (by omega)]
    · have kept : tdel ((i, w) :: r) k = (i, w) :: tdel r k := List.filter_cons_of_pos (by simpa using hi)
      rw [kept, tfind_cons, tfind_cons, ih]

theorem fuelle_setFuelle_other {n k : Nat} (s : State) (x : FulCtx) (h : k ≠ n) : (s.setFuelle n x).fuelle k = s.fuelle k :=
  tget_tput_other _ _ _ _ _ h

@[simp] theorem fuelle_modFuelle (s : State) (n : Nat) (f : FulCtx → FulCtx) : (s.modFuelle n f).fuelle n = f (s.fuelle n) :=
  State.fuelle_setFuelle _ _ _

/-! ### Reports to the host -/

/-- What a report to the host may change: the ports and cipher engines, Isaex and its sessions, what is sent, and the tickets drawn. -/
def Reported (s t : State) : Prop :=
  t = { s with eth := t.eth, cip := t.cip, sess := t.sess, isx := t.isx, egress := t.egress, fresh := t.fresh }

theorem Reported.trans {s t u : State} (h : Reported s t) (k : Reported t u) : Reported s u := by
  unfold Reported at *
  rw [k, h]

theorem Beside.reported {s t : State} (h : Beside s t) : Reported s t := by
  unfold Reported
  rw [h]

theorem Reported.fuelle {s t : State} (h : Reported s t) (k : Nat) : t.fuelle k = s.fuelle k := by
  rw [h]
  rfl

theorem beside_eventCounted (s : State) (ctx : Nat) : Beside s (eventCounted s ctx) := by
  unfold eventCounted
  dsimp only
  split
  · exact (beside_refreshIsaex s ctx).trans (beside_modCipher _ _ _)
  · exact beside_refreshIsaex s ctx

theorem beside_sealEvent (s : State) (r : EventRec) (ctx : Nat) : Beside s (sealEvent s r ctx).1 := by
  have counted (t : State) (h : Beside s t) (x : Sess) : Beside s (eventCounted (t.setSession ctx x) ctx) :=
    (h.trans (beside_setSession _ _ _)).trans (beside_eventCounted _ _)
  unfold sealEvent
  dsimp only
  split
  · exact Beside.rfl' s
  · split
    · exact counted _ (beside_requestKey _ _ _ _ _) _
    · exact (counted _ (beside_requestKey _ _ _ _ _) _).trans (beside_sendFrame _ _ _)

theorem beside_sendEventOn (s : State) (r : EventRec) (ctx : Nat) : Beside s (sendEventOn s r ctx) := by
  unfold sendEventOn holdOut
  dsimp only
  split
  · split
    · exact beside_setSession _ _ _
    · split
      · exact beside_sealEvent _ _ _
      · exact (beside_sealEvent _ _ _).trans (beside_setSession _ _ _)
  · exact Beside.rfl' s

theorem beside_sendEvent (s : State) (r : EventRec) : Beside s (sendEvent s r) :=
  forEach_keeps (Beside s) _ (fun _ _ h => h.trans (beside_sendEventOn _ _ _)) _ _ (Beside.rfl' s)

theorem reported_isx (s : State) (x : Isx) : Reported s { s with isx := x } := rfl

theorem reported_ticket (s : State) : Reported s s.ticket := rfl

theorem reported_raiseEvent (s : State) (code : Nat) (detail : List Byte) : Reported s (raiseEvent s code detail) := by
  unfold raiseEvent
  dsimp only
  split
  · exact reported_isx s _
  · exact (reported_isx s _).trans (beside_sendEvent _ _).reported

theorem reported_raiseOpen (s : State) (code : Nat) : Reported s (raiseOpen s code) :=
  (reported_raiseEvent s code _).trans (reported_ticket _)

theorem reported_discardReport (s : State) (counter : Nat) : Reported s (discardReport s counter) := by
  have report := (reported_isx s { s.isx with reports := tput s.isx.reports counter s.now }).trans (reported_raiseOpen _ 14)
  delta discardReport
  cases tfind s.isx.reports counter with
  | none => exact report
  | some t =>
    dsimp only
    split
    · exact reported_isx s s.isx
    · exact report

/-! ### Actions of one session -/

/-- What the device does for the session of a context: it may report to the host and change that session and the exchange's own state; the
other sessions and the rest of the device stay as they are. -/
def WithinSession (ctx : Nat) (s t : State) : Prop :=
  t = { s with
    eth := t.eth, cip := t.cip, sess := t.sess, isx := t.isx, egress := t.egress, fresh := t.fresh, fctx := t.fctx, ful := t.ful } ∧
  ∀ k, k ≠ ctx → t.fuelle k = s.fuelle k

theorem WithinSession.others {ctx k : Nat} {s t : State} (h : WithinSession ctx s t) (hk : k ≠ ctx) : t.fuelle k = s.fuelle k := h.2 k hk

theorem WithinSession.trans {ctx : Nat} {s t u : State} (h : WithinSession ctx s t) (k : WithinSession ctx t u) : WithinSession ctx s u :=
  And.intro (by rw [k.1, h.1]) fun _ hn => (k.others hn).trans (h.others hn)

theorem Reported.within {s t : State} (h : Reported s t) (ctx : Nat) : WithinSession ctx s t :=
  And.intro (by rw [h]) fun k _ => h.fuelle k

theorem Beside.within {s t : State} (h : Beside s t) (ctx : Nat) : WithinSession ctx s t := h.reported.within ctx

theorem WithinSession.rfl' (ctx : Nat) (s : State) : WithinSession ctx s s := (Beside.rfl' s).within ctx

theorem WithinSession.mem {ctx : Nat} {s t : State} (h : WithinSession ctx s t) : t.mem = s.mem := by rw [h.1]

theorem WithinSession.run {ctx : Nat} {s t : State} (h : WithinSession ctx s t) : t.run = s.run := by rw [h.1]

theorem within_setFuelle (s : State) (ctx : Nat) (x : FulCtx) : WithinSession ctx s (s.setFuelle ctx x) :=
  And.intro rfl fun _ h => fuelle_setFuelle_other s x h

theorem within_modFuelle (s : State) (ctx : Nat) (f : FulCtx → FulCtx) : WithinSession ctx s (s.modFuelle ctx f) :=
  within_setFuelle s ctx _

/-- Asking for the keys of a session, one after the other, changes the cipher engine alone. -/
theorem beside_askKeys (s : State) (d : Nat) (f : Nat → KdfReq) (l : List Nat) : Beside s (forEach l (fun s e => askKey s d (f e)) s) :=
  forEach_keeps (Beside s) _ (fun _ _ h => h.trans (beside_askKey _ _ _)) _ _ (Beside.rfl' s)

/-- Keys are asked for once the session is settled, and those of older epochs are no longer held. -/
theorem refreshFuelle_cases (s : State) (ctx : Nat) :
    refreshFuelle s ctx = s ∨
    ∃ rx tx, Beside (s.setFuelle ctx { s.fuelle ctx with rxEpochs := rx, txEpochs := tx }) (refreshFuelle s ctx) := by
  unfold refreshFuelle
  dsimp only
  split
  · exact .inl rfl
  · refine .inr ⟨(s.fuelle ctx).rxEpochs.filter (rxEpochsOf (s.fuelle ctx).rxHi).contains,
      (s.fuelle ctx).txEpochs.filter (txEpochsOf (s.fuelle ctx).txCount).contains, ?_⟩
    refine Beside.trans ?_ (beside_askKeys _ _ _ _)
    refine Beside.trans ?_ (beside_askKeys _ _ _ _)
    exact beside_modCipher _ _ _

theorem state_refreshFuelle (s : State) (ctx : Nat) : ((refreshFuelle s ctx).fuelle ctx).state = (s.fuelle ctx).state := by
  rcases refreshFuelle_cases s ctx with h | ⟨rx, tx, h⟩
  · rw [h]
  · rw [h.reported.fuelle, State.fuelle_setFuelle]

theorem within_refreshFuelle (s : State) (ctx : Nat) : WithinSession ctx s (refreshFuelle s ctx) := by
  rcases refreshFuelle_cases s ctx with h | ⟨rx, tx, h⟩
  · rw [h]
    exact WithinSession.rfl' ctx s
  · exact (within_setFuelle s ctx _).trans (h.within ctx)

theorem within_keyWait (s : State) (ctx : Nat) : WithinSession ctx s (keyWait s ctx) := by
  unfold keyWait
  dsimp only
  split
  · exact ((within_refreshFuelle s ctx).trans (within_modFuelle _ ctx _)).trans
      (((beside_modCipher _ _ _).reported.trans (reported_raiseOpen _ _)).within ctx)
  · exact within_refreshFuelle s ctx

theorem beside_fulFrame (s : State) (ctx : Nat) (p : FPkt) (ct tag : List Byte) : Beside s (fulFrame s ctx p ct tag) := beside_sendFrame _ _ _

theorem within_sealFul (s : State) (ctx : Nat) (p : FPkt) : WithinSession ctx s (sealFul s ctx p).1 := by
  unfold sealFul
  dsimp only
  split
  · exact (beside_requestKey _ _ _ _ _).within ctx
  · exact ((((beside_requestKey _ _ _ _ _).within ctx).trans (within_setFuelle _ ctx _)).trans ((beside_fulFrame _ _ _ _ _).within ctx)).trans
      (within_keyWait _ _)

theorem within_fulSend (s : State) (ctx : Nat) (p : FPkt) : WithinSession ctx s (fulSend s ctx p) := by
  unfold fulSend
  dsimp only
  split
  · exact WithinSession.rfl' ctx s
  · split
    · exact (within_setFuelle s ctx _).trans (within_keyWait _ _)
    · split
      · exact within_keyWait _ _
      · split
        · exact within_sealFul _ _ _
        · have waited (f : FulCtx → FulCtx) : WithinSession ctx s (keyWait ((sealFul s ctx p).1.modFuelle ctx f) ctx) :=
            ((within_sealFul s ctx p).trans (within_modFuelle _ ctx f)).trans (within_keyWait _ ctx)
          split
          · exact (waited _).trans (within_sealFul _ _ _)
          · exact (waited _).trans (within_modFuelle _ ctx _)

/-! ### A session becomes FREE (R344) -/

theorem within_settleJoin (s : State) (ctx : Nat) : WithinSession ctx s (settleJoin s) := by
  unfold settleJoin
  split
  · exact WithinSession.rfl' ctx s
  · exact And.intro rfl fun _ _ => rfl

theorem fuelle_settleJoin (s : State) (ctx : Nat) : (settleJoin s).fuelle ctx = s.fuelle ctx := by
  unfold settleJoin
  split <;> rfl

/-- A session that leaves the table is FREE, and its event is reported. -/
def dropSession (s : State) (ctx : Nat) : State :=
  raiseOpen (settleJoin (dropUses { s with fctx := tdel s.fctx ctx } (portOf ctx) fun k => k.use != 1 && k.ctx == ctx)) 11

theorem within_dropSession (s : State) (ctx : Nat) : WithinSession ctx s (dropSession s ctx) := by
  have deleted : WithinSession ctx s { s with fctx := tdel s.fctx ctx } :=
    And.intro rfl fun k hk => congrArg (Option.getD · FulCtx.reset) (tfind_tdel_other s.fctx hk)
  exact ((deleted.trans ((beside_modCipher _ _ _).within ctx)).trans (within_settleJoin _ ctx)).trans ((reported_raiseOpen _ 11).within ctx)

theorem fuelle_dropSession (s : State) (ctx : Nat) : (dropSession s ctx).fuelle ctx = FulCtx.reset := by
  rw [dropSession, (reported_raiseOpen _ _).fuelle, fuelle_settleJoin]
  exact congrArg (Option.getD · FulCtx.reset) (tfind_tdel_same s.fctx ctx)

/-- A session that is not FREE leaves the table, after a CLOSE where one is sent. -/
theorem fulFree_drops {s : State} {ctx : Nat} (h : (s.fuelle ctx).state ≠ 0) (sendClose : Bool) :
    ∃ u, WithinSession ctx s u ∧ fulFree s ctx sendClose = dropSession u ctx := by
  unfold fulFree
  dsimp only
  rw [if_neg h]
  split
  · exact ⟨_, within_fulSend s ctx _, rfl⟩
  · exact ⟨_, WithinSession.rfl' ctx s, rfl⟩

theorem fulFree_idle {s : State} {ctx : Nat} (h : (s.fuelle ctx).state = 0) (sendClose : Bool) : fulFree s ctx sendClose = s := if_pos h

theorem within_fulFree (s : State) (ctx : Nat) (sendClose : Bool) : WithinSession ctx s (fulFree s ctx sendClose) := by
  by_cases h : (s.fuelle ctx).state = 0
  · rw [fulFree_idle h]
    exact WithinSession.rfl' ctx s
  · obtain ⟨u, hu, hfree⟩ := fulFree_drops h sendClose
    rw [hfree]
    exact hu.trans (within_dropSession u ctx)

/-- Nothing is left of a session that has become FREE. -/
theorem fuelle_fulFree {s : State} {ctx : Nat} (h : (s.fuelle ctx).state ≠ 0) (sendClose : Bool) :
    (fulFree s ctx sendClose).fuelle ctx = FulCtx.reset := by
  obtain ⟨u, -, hfree⟩ := fulFree_drops h sendClose
  rw [hfree, fuelle_dropSession]

theorem fulFree_state (s : State) (ctx : Nat) (sendClose : Bool) : ((fulFree s ctx sendClose).fuelle ctx).state = 0 := by
  by_cases h : (s.fuelle ctx).state = 0
  · rw [fulFree_idle h, h]
  · rw [fuelle_fulFree h]
    rfl

/-! ### A session is opened (R342, R343, R371) -/

/-- The terms of a session stay those that it was opened with: its rate may be scaled and its OFFERs counted. -/
def SameTerms (c d : FulCtx) : Prop :=
  d = { c with rate := d.rate, rateBase := d.rateBase, offers := d.offers, offerDue := d.offerDue }

theorem SameTerms.trans {c d e : FulCtx} (h : SameTerms c d) (k : SameTerms d e) : SameTerms c e := by
  unfold SameTerms at *
  rw [k, h]

/-- The rates of a port's sessions are scaled, and nothing else changes (R353). -/
theorem scaleRates_keeps (s : State) (iod : Nat) :
    scaleRates s iod = { s with fctx := (scaleRates s iod).fctx } ∧ ∀ k, SameTerms (s.fuelle k) ((scaleRates s iod).fuelle k) := by
  unfold scaleRates
  dsimp only
  split
  · exact ⟨rfl, fun _ => rfl⟩
  · refine forEach_keeps (fun t => t = { s with fctx := t.fctx } ∧ ∀ k, SameTerms (s.fuelle k) (t.fuelle k)) _ ?_ _ s ⟨rfl, fun _ => rfl⟩
    intro t c ⟨hrest, hterms⟩
    refine ⟨by rw [hrest]; rfl, fun k => (hterms k).trans ?_⟩
    by_cases hk : k = c
    · rw [hk, fuelle_modFuelle]
      rfl
    · rw [State.modFuelle, fuelle_setFuelle_other _ _ hk]
      rfl

/-- OFFER leaves, or waits for its key; the session counts it, and keeps its terms (R371). -/
theorem sendFulOffer_keeps (s : State) (ctx : Nat) :
    WithinSession ctx s (sendFulOffer s ctx) ∧ SameTerms (s.fuelle ctx) ((sendFulOffer s ctx).fuelle ctx) := by
  unfold sendFulOffer
  dsimp only
  split
  · exact ⟨WithinSession.rfl' ctx s, rfl⟩
  · split
    · refine ⟨(within_setFuelle s ctx _).trans ((beside_askKey _ _ _).within ctx), ?_⟩
      rw [(beside_askKey _ _ _).reported.fuelle, State.fuelle_setFuelle]
      rfl
    · split
      · refine ⟨((beside_requestKey _ _ _ _ _).within ctx).trans (within_setFuelle _ ctx _), ?_⟩
        rw [State.fuelle_setFuelle]
        rfl
      · refine ⟨(((beside_requestKey _ _ _ _ _).within ctx).trans (within_setFuelle _ ctx _)).trans ((beside_fulFrame _ _ _ _ _).within ctx), ?_⟩
        rw [(beside_fulFrame _ _ _ _ _).reported.fuelle, State.fuelle_setFuelle]
        rfl

/-- A session under a salt of its own that is fresh: no OFFER has been counted under it, and its offer key is not held (R371). -/
def resalted (c : FulCtx) (salt : W64) : FulCtx := { c with saltOwn := salt, offers := 0, offerTx := false, offerDue := false }

theorem within_drawSalt (s : State) (ctx : Nat) : WithinSession ctx s (drawSalt s ctx) :=
  ((within_modFuelle s ctx _).trans ((beside_modCipher _ _ _).within ctx)).trans ((reported_ticket _).within ctx)

theorem fuelle_drawSalt (s : State) (ctx : Nat) : (drawSalt s ctx).fuelle ctx = resalted (s.fuelle ctx) (saltOf s.fresh) :=
  fuelle_modFuelle s ctx fun c => resalted c (saltOf s.fresh)

theorem within_beginJoin (s : State) (ctx : Nat) : WithinSession ctx s (beginJoin s) := by
  unfold beginJoin
  split
  · exact WithinSession.rfl' ctx s
  · exact And.intro rfl fun _ _ => rfl

theorem fuelle_beginJoin (s : State) (ctx : Nat) : (beginJoin s).fuelle ctx = s.fuelle ctx := by
  unfold beginJoin
  split <;> rfl

/-- FUL_OPEN leaves the context that it names as `openedContext` says, under a fresh salt, and memory as it was. -/
theorem openFuelle_opens (s : State) (p : List Byte) :
    SameTerms (resalted (openedContext s p) (saltOf s.fresh)) ((openFuelle s p).fuelle (be p 0 2)) ∧ (openFuelle s p).mem = s.mem := by
  have drawn := (within_setFuelle s (be p 0 2) (openedContext s p)).trans (within_drawSalt _ _)
  have salted := fuelle_drawSalt (s.setFuelle (be p 0 2) (openedContext s p)) (be p 0 2)
  rw [State.fuelle_setFuelle] at salted
  have joined (b : Bool) (t : State) :
      WithinSession (be p 0 2) t (if b then beginJoin t else t) ∧ (if b then beginJoin t else t).fuelle (be p 0 2) = t.fuelle (be p 0 2) := by
    cases b
    · exact ⟨WithinSession.rfl' _ t, rfl⟩
    · exact ⟨within_beginJoin t _, fuelle_beginJoin t _⟩
  unfold openFuelle
  dsimp only
  generalize drawSalt (s.setFuelle (be p 0 2) (openedContext s p)) (be p 0 2) = u at drawn salted ⊢
  obtain ⟨hjoin, hsame⟩ := joined (bit (be p 28 1) 1) u
  generalize (if bit (be p 28 1) 1 then beginJoin u else u) = v at hjoin hsame ⊢
  obtain ⟨hrest, hrates⟩ := scaleRates_keeps (raiseOpen v 11) (portOf (be p 0 2))
  have hoffer := sendFulOffer_keeps (scaleRates (raiseOpen v 11) (portOf (be p 0 2))) (be p 0 2)
  have hraise := reported_raiseOpen v 11
  constructor
  · have hterms := (hrates (be p 0 2)).trans hoffer.2
    rwa [hraise.fuelle, hsame, salted] at hterms
  · rw [hoffer.1.mem, hrest]
    exact ((hraise.within (be p 0 2)).mem.trans hjoin.mem).trans drawn.mem

/-! ### The commands -/

theorem served_inReset (s : State) (e : Env) (fn : Nat) : (served s e).inReset fn = s.inReset fn := by rw [beside_served s e]; rfl

theorem served_fuelle (s : State) (e : Env) (ctx : Nat) : (served s e).fuelle ctx = s.fuelle ctx := (beside_served s e).reported.fuelle ctx

theorem served_mem (s : State) (e : Env) : (served s e).mem = s.mem := by rw [beside_served s e]

/-- A command that needs EXCHANGE is BUSY while that is in reset (R399). -/
theorem needing_exchange_busy {s : State} (e : Env) (f : State → State) (h : s.inReset 4 = true) :
    needing [4] e f (served s e) = reply (served s e) e 1 [] :=
  needing_busy 4 (List.mem_singleton_self 4) (by rwa [served_inReset])

theorem needing_exchange_runs {s : State} (e : Env) (f : State → State) (h : s.inReset 4 = false) :
    needing [4] e f (served s e) = f (served s e) :=
  needing_runs fun n hn => by rwa [List.mem_singleton.mp hn, served_inReset]

theorem exec_fulOpen {e : Env} {p : List Byte} {s : State} (h : Accepts (plainCmd 0x70 inRUQ 40 fulOpenOk) e p s) :
    exec (.fulOpen e p) s = .next (needing [4] e (fun s =>
      reply (if fulOpenStatus s p = stOk then openFuelle s p else s) e (fulOpenStatus s p) []) (served s e)) :=
  hostCommand_accepts h (.fulOpen e p) _ rfl

theorem exec_fulClose {e : Env} {p : List Byte} {s : State} (h : Accepts (plainCmd 0x71 inRUQ 8 fulCtxOk) e p s) :
    exec (.fulClose e p) s = .next (needing [4] e (fun s => reply (fulFree s (be p 0 2) true) e stOk []) (served s e)) :=
  hostCommand_accepts h (.fulClose e p) _ rfl

/-- Settles O25: a command that is served runs on `served` (`hostCommand_accepts`) where EXCHANGE is not in reset; FUL_OPEN leaves its
context as `openFuelle_opens` says, and FUL_CLOSE acts within its session (`within_fulFree`). -/
theorem fuelleCommandsComplete : Obligations.FuelleCommandsComplete := by
  intro e p s
  refine ⟨fun h => ⟨?openBusy, ?opens, ?openFails⟩, fun h => ⟨?closeBusy, ?closes⟩, fun h => ?status⟩
  case openBusy =>
    intro hreset
    rw [exec_fulOpen h, needing_exchange_busy e _ hreset]
  case opens =>
    intro hreset hst
    obtain ⟨hterms, hmem⟩ := openFuelle_opens (served s e) p
    have hreply := beside_reply (openFuelle (served s e) p) e 0 []
    rw [← hreply.reported.fuelle] at hterms
    have hroot : (served s e).keys.cur = s.keys.cur := by rw [beside_served s e]
    have hfresh : (served s e).fresh = s.fresh := by rw [beside_served s e]
    have field {α : Type} (f : FulCtx → α) := congrArg f hterms
    refine ⟨reply (openFuelle (served s e) p) e 0 [], ?_, field FulCtx.state, field FulCtx.peerIp, field FulCtx.peerPort, field FulCtx.peerCtx,
      field FulCtx.slot, field FulCtx.weight, field FulCtx.k, field FulCtx.m, (field FulCtx.root).trans hroot,
      (field FulCtx.saltOwn).trans (congrArg saltOf hfresh), ((hreply.within 0).mem.trans hmem).trans (served_mem s e)⟩
    rw [exec_fulOpen h, needing_exchange_runs e _ hreset, if_pos (show _ = stOk from hst), hst]
  case openFails =>
    intro hreset hst
    rw [exec_fulOpen h, needing_exchange_runs e _ hreset, if_neg (show ¬_ = stOk from hst)]
  case closeBusy =>
    intro hreset
    rw [exec_fulClose h, needing_exchange_busy e _ hreset]
  case closes =>
    intro hreset
    have hreply := beside_reply (fulFree (served s e) (be p 0 2) true) e 0 []
    have hwithin := (within_fulFree (served s e) (be p 0 2) true).trans (hreply.within _)
    refine ⟨reply (fulFree (served s e) (be p 0 2) true) e 0 [], ?_, ?_, fun k hk => ?_, hwithin.mem.trans (served_mem s e)⟩
    · rw [exec_fulClose h, needing_exchange_runs e _ hreset]
      rfl
    · rw [hreply.reported.fuelle, fulFree_state]
    · rw [hwithin.others hk, served_fuelle]
  case status =>
    rw [← served_fuelle s e]
    exact hostCommand_accepts h (.fulStatus e p) _ rfl

end Sys2Proof.Safety
end

section
/-!
SUPPORT. Packets that arrive on Fuelle sessions (R345, R356, R371, R374; O53): the checks of R356 come down to the dispatch of a session
packet (`receiveSession_accepts`) and to the settlement of an OFFER (`receiveOffer_takes`).
-/
namespace Sys2Proof.Safety

open Sys2Proof.Machine

/-! ### What counting a frame leaves of the checks -/

theorem ownIp_countRx (s : State) (p port : Nat) (peer : BitVec 128) : ownIp (countRx s p) port peer = ownIp s port peer := by
  have address : ((countRx s p).ether port).ipv4 = (s.ether port).ipv4 ∧ ((countRx s p).ether port).ipv6 = (s.ether port).ipv6 := by
    by_cases h : port = p
    · rw [h, countRx, State.ether_modEther]
      exact ⟨rfl, rfl⟩
    · rw [show (countRx s p).ether port = s.ether port from tget_tput_other _ _ _ _ _ h]
      exact ⟨rfl, rfl⟩
  unfold ownIp
  dsimp only
  rw [address.1, address.2]

theorem fulIsA_countRx (s : State) (p ctx : Nat) : fulIsA (countRx s p) ctx = fulIsA s ctx := by
  unfold fulIsA
  dsimp only
  rw [ownIp_countRx]
  rfl

theorem fulKey_countRx (s : State) (p ctx use : Nat) (mine : Bool) (epoch : Nat) :
    fulKey (countRx s p) ctx use mine epoch = fulKey s ctx use mine epoch := by
  unfold fulKey
  dsimp only
  rw [ownIp_countRx, fulIsA_countRx]
  rfl

theorem fulTagOk_countRx (s : State) (p ctx use epoch : Nat) (f : FPkt) :
    fulTagOk (countRx s p) ctx use epoch f = fulTagOk s ctx use epoch f := by
  unfold fulTagOk fulDir
  rw [fulKey_countRx, fulIsA_countRx]

theorem requestKey_countRx (s : State) (p d : Nat) (k : KeyName) (aad plain : Nat) :
    (requestKey (countRx s p) d k aad plain).2 = (requestKey s d k aad plain).2 := by
  unfold requestKey
  split <;> rfl

/-! ### The checks of R356 -/

/-- The row of a packet counts its frame and checks it. -/
theorem fulArrive_reaches {f : FPkt} {s : State} (h : FulReaches f s) :
    guardedBy (decide (f.port < 2)) s (fulArrive f) = .next
      (if f.typ = 4 then receiveOffer (countRx s f.port) f else receiveSession (countRx s f.port) f) := by
  obtain ⟨hport, ⟨hup, hwarm⟩, ⟨hexchange, hcipher⟩, hversion, ⟨hctx, hdie, hlive⟩, hip, hudp⟩ := h
  have inService : ¬((countRx s f.port).inReset 4 = true ∨ (countRx s f.port).inReset 6 = true) := by
    rw [show (countRx s f.port).inReset 4 = false from hexchange, show (countRx s f.port).inReset 6 = false from hcipher]
    simp
  have known : ¬(f.version ≠ 1 ∨ f.context ≥ 16384 ∨ portOf f.context ≠ f.port ∨ ((countRx s f.port).fuelle f.context).state = 0 ∨
      ((countRx s f.port).fuelle f.context).peerIp ≠ f.srcIp ∨ ((countRx s f.port).fuelle f.context).peerPort ≠ f.srcPort) := by
    rw [(beside_countRx s f.port).reported.fuelle]
    simp [hversion, hctx, hdie, hlive, hip, hudp]
  rw [guardedBy_next (decide_eq_true hport)]
  unfold fulArrive fulCheck
  dsimp only
  rw [if_neg (by simp [hup, hwarm]), if_neg inService, if_neg known]

/-- A request that a key serves opens a packet whose tag verifies. -/
theorem fulOpened_opens {s trial : State} {f : FPkt} {name : KeyName} {epoch : Nat} (k : State → State)
    (hserved : (requestKey s f.port name 32 f.plain.length).2 = true) (htag : fulTagOk trial f.context name.use epoch f = true) :
    fulOpened s f name trial epoch k = k (requestKey s f.port name 32 f.plain.length).1 := by
  have hlength : requestOk 32 f.plain.length = true := by
    rcases requestKey_cases s f.port name 32 f.plain.length with ⟨-, h⟩ | ⟨h, -⟩ | ⟨h, -⟩
    · rw [h] at hserved
      exact absurd hserved Bool.false_ne_true
    · exact h
    · exact h
  unfold fulOpened
  simp [hlength, hserved, htag]

/-! ### Packets under the session key -/

/-- The state in which an accepted packet is taken: the use of its key is counted, the window of its session has moved to it, and the keys
that the session then needs are asked for (R356, R372, R374). -/
def windowed (s : State) (f : FPkt) : State :=
  refreshFuelle ((requestKey (countRx s f.port) f.port (fuelleName f.context false f.epoch.toNat) 32 f.plain.length).1.setFuelle f.context
    ((s.fuelle f.context).accept (fulCount f) s.now f)) f.context

theorem within_windowed (s : State) (f : FPkt) : WithinSession f.context s (windowed s f) :=
  ((((beside_countRx s f.port).trans (beside_requestKey _ _ _ _ _)).within _).trans (within_setFuelle _ _ _)).trans (within_refreshFuelle _ _)

theorem state_windowed (s : State) (f : FPkt) : ((windowed s f).fuelle f.context).state = (s.fuelle f.context).state := by
  rw [windowed, state_refreshFuelle, State.fuelle_setFuelle]
  rfl

theorem receiveSession_accepts {f : FPkt} {s : State} (h : FulAccepts f s) :
    receiveSession (countRx s f.port) f = fulDispatch (windowed s f) f.context f := by
  obtain ⟨-, hepoch, hcount, hsettled, hkey, hwithin, htag, hfields⟩ := h
  have hsame := (beside_countRx s f.port).reported.fuelle f.context
  have hnow : (requestKey (countRx s f.port) f.port (fuelleName f.context false f.epoch.toNat) 32 f.plain.length).1.now = s.now := by
    rw [(beside_countRx s f.port).trans (beside_requestKey _ _ _ _ _)]
    rfl
  unfold receiveSession
  dsimp only
  rw [hsame, if_neg (by rw [hepoch]; simp), if_neg (by rw [hcount]; simp), if_neg hsettled, if_neg (by rw [hkey]; simp),
    fulOpened_opens _ (by rw [requestKey_countRx, hwithin]) (by rw [fulTagOk_countRx]; exact htag), if_neg (by rw [hfields]; simp),
    State.modFuelle, (beside_requestKey _ _ _ _ _).reported.fuelle, hsame, hnow]
  rfl

theorem fulDispatch_stream {f : FPkt} (s : State) (ctx : Nat) (h : f.typ = 1 ∨ f.typ = 2) : fulDispatch s ctx f = takePacket s ctx f := by
  rcases h with h | h
  · simp only [fulDispatch, h]
  · simp only [fulDispatch, h]

theorem fulDispatch_ack {f : FPkt} (s : State) (ctx : Nat) (h : f.typ = 3) : fulDispatch s ctx f = takeAckPacket s ctx f := by
  simp only [fulDispatch, h]

theorem fulDispatch_close {f : FPkt} (s : State) (ctx : Nat) (h : f.typ = 5) : fulDispatch s ctx f = fulFree s ctx false := by
  simp only [fulDispatch, h]

theorem fulDispatch_join {f : FPkt} (s : State) (ctx : Nat) (h : f.typ = 6) : fulDispatch s ctx f =
    if canSponsor s = true then s.modFuelle ctx fun c => { c with joinAsked := true } else sendFulOffer s ctx := by
  simp only [fulDispatch, h]

/-- The row of an accepted session packet takes it as its type says. -/
theorem fulArrive_accepts {f : FPkt} {s : State} (h : FulAccepts f s) (htyp : f.typ ≠ 4) :
    guardedBy (decide (f.port < 2)) s (fulArrive f) = .next (fulDispatch (windowed s f) f.context f) := by
  rw [fulArrive_reaches h.reaches, if_neg htyp, receiveSession_accepts h]

/-! ### OFFER -/

/-- The SEQ of an OFFER has not come under its salt (R356, R371). -/
def offerNew (s : State) (f : FPkt) : Bool :=
  windowOk ((s.fuelle f.context).offerWindow (offerSalt f)).1 ((s.fuelle f.context).offerWindow (offerSalt f)).2 f.seq.toNat

theorem receiveOffer_seen {f : FPkt} {s : State} (hepoch : f.epoch = 0) (hseen : offerNew s f = false) :
    receiveOffer s f = fulDropSeq s f.port := by
  unfold offerNew at hseen
  unfold receiveOffer
  dsimp only
  rw [if_neg (by simp [hepoch]), if_pos (by rw [hseen]; rfl)]

/-- What is left of `receiveOffer` for an OFFER that is new under a salt that may be one. -/
theorem receiveOffer_new {f : FPkt} {s : State} (hepoch : f.epoch = 0) (hroot : s.keys.cur.isSome = true) (hsalt : offerSalt f ≠ 0)
    (hnew : offerNew s f = true) :
    receiveOffer s f =
      if (s.fuelle f.context).offerRx ≠ offerSalt f then awaitKey s f (.offerRx f.context (offerSalt f))
      else
        fulOpened s f (offerName f.context false (offerSalt f)) (s.modFuelle f.context fun c => { c with saltPeer := offerSalt f }) 0 fun s =>
          let s := s.modFuelle f.context fun c => c.acceptOffer f
          if !fulFieldsOk f then fulDropTag s f.port else takeOffer s f.context f := by
  have hkey : ¬(s.keys.cur.isNone || offerSalt f == 0) = true := by
    obtain ⟨k, hk⟩ := Option.isSome_iff_exists.mp hroot
    simpa [hk] using hsalt
  unfold offerNew at hnew
  unfold receiveOffer
  dsimp only
  rw [if_neg (by simp [hepoch]), if_neg (by rw [hnew]; simp), if_neg hkey]

/-- The state in which an OFFER that has passed the checks is taken. -/
def offerWindowed (s : State) (f : FPkt) : State :=
  (requestKey (countRx s f.port) f.port (offerName f.context false (offerSalt f)) 32 f.plain.length).1.modFuelle f.context
    fun c => c.acceptOffer f

theorem receiveOffer_takes {f : FPkt} {s : State} (hepoch : f.epoch = 0) (hroot : s.keys.cur.isSome = true) (hsalt : offerSalt f ≠ 0)
    (hnew : offerNew s f = true) (hheld : (s.fuelle f.context).offerRx = offerSalt f)
    (hserved : (requestKey (countRx s f.port) f.port (offerName f.context false (offerSalt f)) 32 f.plain.length).2 = true)
    (htag : fulTagOk (s.modFuelle f.context fun c => { c with saltPeer := offerSalt f }) f.context 2 0 f = true)
    (hfields : fulFieldsOk f = true) :
    receiveOffer (countRx s f.port) f = takeOffer (offerWindowed s f) f.context f := by
  refine ((receiveOffer_new (s := countRx s f.port) hepoch hroot hsalt hnew).trans (if_neg (not_not_intro hheld))).trans ?_
  refine (fulOpened_opens _ hserved ((fulTagOk_countRx (s.modFuelle f.context _) f.port _ _ _ f).trans htag)).trans ?_
  exact if_neg (by rw [hfields]; simp)

theorem requestKey_only (s : State) (d : Nat) (k : KeyName) (aad plain : Nat) :
    (requestKey s d k aad plain).1 = { s with cip := (requestKey s d k aad plain).1.cip } := by
  unfold requestKey
  split <;> rfl

theorem offerWindowed_only (s : State) (f : FPkt) :
    offerWindowed s f = { s with eth := (offerWindowed s f).eth, cip := (offerWindowed s f).cip, fctx := (offerWindowed s f).fctx } := by
  rw [offerWindowed, State.modFuelle, requestKey_only]
  rfl

theorem fuelle_offerWindowed (s : State) (f : FPkt) : (offerWindowed s f).fuelle f.context = (s.fuelle f.context).acceptOffer f := by
  rw [offerWindowed, fuelle_modFuelle, (beside_requestKey _ _ _ _ _).reported.fuelle, (beside_countRx _ _).reported.fuelle]

/-- A SEQ that has come is dropped and counted, and the discard may be reported. -/
theorem fulDropSeq_keeps (s : State) (d : Nat) : (fulDropSeq s d).fctx = s.fctx := by
  rw [fulDropSeq, reported_discardReport]
  rfl

/-! ### The obligation -/

/-- Settles O53: a session packet that passes the checks is dispatched on `windowed` (`fulArrive_accepts`); an OFFER is dropped, waits for its
key or is taken, as `receiveOffer_seen`, `receiveOffer_new` and `receiveOffer_takes` say. -/
theorem fuellePacketsComplete : Obligations.FuellePacketsComplete := by
  refine ⟨fun f s h => ⟨?data, ?parity, ?ack, ?close, ?join⟩, fun f s h htyp hepoch hroot hsalt => ⟨?seen, ?awaits, ?taken⟩⟩
  case data =>
    intro htyp
    exact (fulArrive_accepts h (by omega)).trans (congrArg _ (fulDispatch_stream _ _ (.inl htyp)))
  case parity =>
    intro htyp
    exact (fulArrive_accepts h (by omega)).trans (congrArg _ (fulDispatch_stream _ _ (.inr htyp)))
  case ack =>
    intro htyp
    exact (fulArrive_accepts h (by omega)).trans (congrArg _ (fulDispatch_ack _ _ htyp))
  case close =>
    intro htyp
    have hlive : ((windowed s f).fuelle f.context).state ≠ 0 := by
      rw [state_windowed]
      exact h.reaches.context.2.2
    have hfree := (within_windowed s f).trans (within_fulFree (windowed s f) f.context false)
    exact ⟨_, (fulArrive_accepts h (by omega)).trans (congrArg _ (fulDispatch_close _ _ htyp)), fuelle_fulFree hlive false, hfree.mem, hfree.run⟩
  case join =>
    intro htyp
    exact (fulArrive_accepts h (by omega)).trans (congrArg _ (fulDispatch_join _ _ htyp))
  all_goals have harrive := (fulArrive_reaches h).trans (congrArg _ (if_pos htyp))
  case seen =>
    intro hseen
    exact ⟨harrive.trans (congrArg _ (receiveOffer_seen hepoch hseen)), fulDropSeq_keeps _ _⟩
  case awaits =>
    intro hnew hmissing
    exact harrive.trans (congrArg _ ((receiveOffer_new (s := countRx s f.port) hepoch hroot hsalt hnew).trans (if_pos hmissing)))
  case taken =>
    intro r hnew hheld hserved htag hfields
    exact ⟨offerWindowed s f, harrive.trans (congrArg _ (receiveOffer_takes hepoch hroot hsalt hnew hheld hserved htag hfields)),
      fuelle_offerWindowed s f, offerWindowed_only s f⟩

end Sys2Proof.Safety
end

section
/-!
SUPPORT. Timers, rounds and joins of the Fuelle exchange (R333, R334, R338, R344, R350, R353, R357, R358, R375, R376; O54): what each row
comes to where its condition holds.
-/
namespace Sys2Proof.Safety

open Sys2Proof.Machine

/-! ### The timers of a session -/

/-- A packet is due, or the session waits for the key of its next epoch (R353, R375). -/
theorem exec_fuellePacedSend {ctx : Nat} {s : State} {f : FulSched} (hctx : ctx < 16384) (hsched : fulSched s = some f)
    (hopen : (s.fuelle ctx).state = 2) (hsettled : (s.fuelle ctx).saltPeer ≠ 0) (hsends : fulQuiet s ctx = false)
    (hhop : (s.ether (portOf ctx)).nextHop ≠ 0) :
    exec (.fuellePacedSend ctx) s = .next (
      let u := abandonRounds s ctx
      if (u.fuelle ctx).canSeal = false ∧ alarmMeets u (u.fuelle ctx).txCount = false then keyWait u ctx else pacedPacket u ctx f) := by
  show execFuellePacedSend ctx s = _
  unfold execFuellePacedSend
  rw [guardedBy_next (decide_eq_true hctx), hsched]
  exact congrArg Host.Outcome.next (if_neg (by simpa [hopen, hsends] using ⟨hsettled, hhop⟩))

/-- While packets arrive, every stream is reported (R350). -/
theorem exec_fuelleAckTimer {ctx : Nat} {s : State} (hctx : ctx < 16384) (hlive : (s.fuelle ctx).state ≠ 0)
    (hheard : (s.fuelle ctx).rxHi.isSome = true) (hnew : s.now - (s.fuelle ctx).newestAt ≤ ackInterval (s.fuelle ctx)) :
    exec (.fuelleAckTimer ctx) s = .next (forEach (s.fuelle ctx).rx (fun s x => sendAck s ctx x.round x.sponsor) s) := by
  have hnone : (s.fuelle ctx).rxHi.isNone = false := by rw [← Option.not_isSome, hheard]; rfl
  refine (guardedBy_next (decide_eq_true hctx)).trans (congrArg Host.Outcome.next (if_neg ?_))
  simpa [hlive, hnone] using hnew

/-- Before settlement the session offers its salt again (R344). -/
theorem exec_fuelleOfferTimer_offers {ctx : Nat} {s : State} (hctx : ctx < 16384) (hlive : (s.fuelle ctx).state ≠ 0)
    (hruns : (s.fuelle ctx).state ≠ 4) (hsalt : (s.fuelle ctx).saltPeer = 0) :
    exec (.fuelleOfferTimer ctx) s = .next (sendFulOffer s ctx) :=
  (guardedBy_next (decide_eq_true hctx)).trans (congrArg Host.Outcome.next ((if_neg (by simp [hlive, hruns])).trans (if_pos hsalt)))

/-- A joiner without its snapshot asks with JOIN (R357; log 58). -/
theorem exec_fuelleOfferTimer_joins {ctx : Nat} {s : State} (hctx : ctx < 16384) (hjoining : (s.fuelle ctx).state = 3)
    (hsalt : (s.fuelle ctx).saltPeer ≠ 0) (hsnapshot : (s.fuelle ctx).installed = false) (hsends : fulQuiet s ctx = false) :
    exec (.fuelleOfferTimer ctx) s = .next (fulSend s ctx (fulBlank s ctx 6 (beBytes 4 (roundBase s)))) :=
  (guardedBy_next (decide_eq_true hctx)).trans (congrArg Host.Outcome.next
    ((if_neg (by simp [hjoining])).trans ((if_neg hsalt).trans (if_pos ⟨hjoining, hsnapshot, hsends⟩))))

theorem abandonRounds_now (s : State) (ctx : Nat) : (abandonRounds s ctx).now = s.now := by
  unfold abandonRounds
  dsimp only
  split <;> rfl

/-- A round with every packet of its lowest group not reported due again (R350). -/
def askedAgain (c : FulCtx) (now : Nat) (x : TxRound) : TxRound :=
  { x with
    resend := (List.range (x.groupSize c.k x.done + c.m)).map fun i => (x.done, i)
    resentAt := tput x.resentAt x.done now }

/-- The first round that is overdue is asked for again, RTO doubles up to 16 times, and the rate falls (R350, R353). -/
theorem exec_fuelleRtoExpiry {ctx : Nat} {s : State} {x : TxRound} (hctx : ctx < 16384)
    (hdue : ((abandonRounds s ctx).fuelle ctx).tx.find?
      (fun x => x.overdue ((abandonRounds s ctx).fuelle ctx) (abandonRounds s ctx).now) = some x) :
    exec (.fuelleRtoExpiry ctx) s = .next (
      let u := abandonRounds s ctx
      scaleRates ((setRound u ctx (askedAgain (u.fuelle ctx) s.now x)).modFuelle ctx fun c =>
        { c.paceBy s.now false true with rtoScale := Nat.min 16 (2 * c.rtoScale) }) (portOf ctx)) := by
  show execFuelleRtoExpiry ctx s = _
  unfold execFuelleRtoExpiry
  rw [guardedBy_next (decide_eq_true hctx)]
  dsimp only
  rw [hdue, ← abandonRounds_now s ctx]
  rfl

theorem exec_fuelleRekey {ctx : Nat} {s : State} (hctx : ctx < 16384) (hstate : (s.fuelle ctx).state = 2 ∨ (s.fuelle ctx).state = 3)
    (hsalt : (s.fuelle ctx).saltPeer ≠ 0) :
    exec (.fuelleRekey ctx) s = .next (
      if ackLost (s.fuelle ctx) s.now = true then
        let u := dropUses (s.modFuelle ctx fun c => { c with saltPeer := 0, txEpochs := [], due := [], rxEpochs := [], awaiting := none })
          (portOf ctx) fun k => k.use == 3 && k.ctx == ctx
        sendFulOffer (drawSalt (u.modCipher (portOf ctx) fun x => { x with rekeys := satInc 0xFFFF x.rekeys }) ctx) ctx
      else s) := by
  show execFuelleRekey ctx s = _
  unfold execFuelleRekey
  rw [guardedBy_next (decide_eq_true hctx)]
  refine congrArg Host.Outcome.next ?_
  cases hlost : ackLost (s.fuelle ctx) s.now with
  | false => exact if_pos (.inr (.inr hlost))
  | true =>
    refine if_neg ?_
    simpa [hlost] using ⟨fun h => hstate.resolve_left h, hsalt⟩

/-! ### Rounds -/

theorem exec_roundQueued {s : State} {f : FulSched} {r : Nat} (hsched : fulSched s = some f) (hround : sendRound s = some r)
    (hruns : runInProgress s = true) (hstate : s.glb.state = .running ∨ s.isx.parking = true) (hphase : s.run.phase = 5)
    (hgoes : s.run.abandoned = false) (hdue : s.run.exchangeDone = false) (hreset : s.inReset 4 = false) :
    exec .roundQueued s = .next (queueRound s f r) := by
  show execRoundQueued s = _
  unfold execRoundQueued
  rw [guardedBy_next rfl, hsched, hround]
  exact congrArg Host.Outcome.next (if_pos ⟨hruns, hstate, hphase, hgoes, hdue, hreset⟩)

/-- Nothing but memory differs. -/
def MemoryOnly (s t : State) : Prop := t = { s with mem := t.mem }

theorem MemoryOnly.trans {s t u : State} (h : MemoryOnly s t) (k : MemoryOnly t u) : MemoryOnly s u := by
  unfold MemoryOnly at *
  rw [k, h]

theorem memoryOnly_writeBytes (s : State) (pa : Nat) (bs : List Byte) : MemoryOnly s (writeBytes s pa bs) := writeBytes_frame bs s pa

/-- A fold writes memory alone where each of its steps does. -/
theorem memoryOnly_forEach {α : Type} {f : State → α → State} (hf : ∀ s a, MemoryOnly s (f s a)) (l : List α) (s : State) :
    MemoryOnly s (forEach l f s) :=
  forEach_keeps (MemoryOnly s) f (fun t a h => h.trans (hf t a)) l s rfl

theorem MemoryOnly.tickets {s t : State} (h : MemoryOnly s t) (n : Nat) :
    ({ t with fresh := n } : State) = { s with mem := t.mem, fresh := n } := by
  rw [h]

/-- Formation writes memory and draws tickets, and nothing else (R338). -/
theorem formDelta_only (s : State) : formDelta s = { s with mem := (formDelta s).mem, fresh := (formDelta s).fresh } := by
  delta formDelta
  cases fulSched s with
  | none => rfl
  | some f =>
    dsimp only
    refine (memoryOnly_forEach (fun t ti => ?_) _ s).tickets _
    cases f.tensors[ti]? with
    | none => rfl
    | some te =>
      dsimp only
      cases entryTensor t te with
      | none => rfl
      | some d => exact memoryOnly_forEach (fun u row => memoryOnly_writeBytes u _ _) _ t

theorem formDelta_ful (s : State) : (formDelta s).ful = s.ful := by rw [formDelta_only]

theorem formDelta_cores (s : State) : (formDelta s).cores = s.cores := by rw [formDelta_only]

theorem formDelta_run (s : State) : (formDelta s).run = s.run := by rw [formDelta_only]

theorem die_modDie_other {n k : Nat} (s : State) (f : FulDie → FulDie) (h : k ≠ n) : (s.modDie n f).die k = s.die k :=
  tget_tput_other _ _ _ _ _ h

/-- The closed round is formed, and both dies take its number (R338). -/
theorem exec_roundReady {s : State} {r : Nat} (hclosed : s.ful.closed = some r) (hruns : runInProgress s = true)
    (hready : s.ful.ready = false) (hgoes : s.run.abandoned = false) (hreset : s.inReset 4 = false) (hphase : s.run.phase ≤ 2) :
    exec .roundReady s = .next (
      let u := formDelta s
      ({ u with ful := { u.ful with ready := true } }.modDie 0 fun x => { x with formed := r }).modDie 1 fun x => { x with formed := r }) := by
  show execRoundReady s = _
  unfold execRoundReady
  rw [guardedBy_next rfl, hclosed]
  exact congrArg Host.Outcome.next (if_pos ⟨hruns, hready, hgoes, hreset, hphase⟩)

/-! ### The end of a join (R358) -/

theorem exec_joinEnd {s : State} {p : Plan} {f : FulSched} (hplan : s.run.plan = some p) (hsched : fulSched s = some f)
    (hjoin : s.ful.joinSince.isSome = true) (hsome : ∃ e ∈ s.fctx, e.2.joining = true)
    (hall : ∀ e ∈ s.fctx, e.2.joining = true → e.2.installed = true) : exec .joinEnd s = .next (endJoin s p f) := by
  show execJoinEnd s = _
  unfold execJoinEnd
  rw [guardedBy_next rfl, hplan, hsched]
  refine congrArg Host.Outcome.next (if_pos ⟨hjoin, List.any_eq_true.mpr hsome, List.all_eq_true.mpr fun e he => ?_⟩)
  cases hj : e.2.joining with
  | false => rfl
  | true => exact hall e he hj

theorem exec_joinLimitExpiry {s : State} {p : Plan} {f : FulSched} {since : Nat} (hplan : s.run.plan = some p)
    (hsched : fulSched s = some f) (hjoin : s.ful.joinSince = some since) (hlimit : s.ful.joinFor ≤ s.now - since) :
    exec .joinLimitExpiry s = .next (endJoin s p f) := by
  show execJoinLimitExpiry s = _
  unfold execJoinLimitExpiry
  rw [guardedBy_next rfl, hplan, hsched, hjoin]
  exact congrArg Host.Outcome.next (if_pos hlimit)

/-! ### The obligation -/

/-- Settles O54: each row comes to its effect where its condition holds. -/
theorem fuelleTimersAndRoundsComplete : Obligations.FuelleTimersAndRoundsComplete := by
  refine ⟨fun ctx s hctx => ⟨?send, ?ack, ?offer, ?join, ?rto, ?rekey⟩, ?queued, ?ready, fun s p f hplan hsched => ⟨?joinEnd, ?joinLimit⟩⟩
  case send => exact fun f hsched hopen hsettled hsends hhop => exec_fuellePacedSend hctx hsched hopen hsettled hsends hhop
  case ack => exact fun hlive hheard hnew => exec_fuelleAckTimer hctx hlive hheard hnew
  case offer => exact fun hlive hruns hsalt => exec_fuelleOfferTimer_offers hctx hlive hruns hsalt
  case join => exact fun hjoining hsalt hsnapshot hsends => exec_fuelleOfferTimer_joins hctx hjoining hsalt hsnapshot hsends
  case rto => exact fun x hdue => exec_fuelleRtoExpiry hctx hdue
  case rekey =>
    intro hstate hsalt
    refine ⟨fun since hsince hlong => ?_, fun hnone => ?_⟩
    · exact (exec_fuelleRekey hctx hstate hsalt).trans (congrArg _ (if_pos (by rw [ackLost, hsince]; exact decide_eq_true hlong)))
    · exact (exec_fuelleRekey hctx hstate hsalt).trans (congrArg _ (if_neg (by rw [ackLost, hnone]; exact Bool.false_ne_true)))
  case queued =>
    intro s f r hsched hround hruns hstate hphase hgoes hdue hreset
    exact ⟨exec_roundQueued hsched hround hruns hstate hphase hgoes hdue hreset, rfl, rfl⟩
  case ready =>
    intro s r hclosed hruns hready hgoes hreset hphase
    refine ⟨_, exec_roundReady hclosed hruns hready hgoes hreset hphase, ?_, ?_, ?_, rfl, formDelta_cores s, formDelta_run s⟩
    · rw [← formDelta_ful s]
      rfl
    · rw [die_modDie_other _ _ (by decide), State.die_modDie]
    · rw [State.die_modDie]
  case joinEnd => exact fun hjoin hsome hall => exec_joinEnd hplan hsched hjoin hsome hall
  case joinLimit => exact fun since hjoin hlimit => exec_joinLimitExpiry hplan hsched hjoin hlimit

end Sys2Proof.Safety
end
